-- ==== Sys2Proof/Word.lean ====
section
/-! DEFINITION. The block's word types (spec/00_scope.md R5, R7). -/

namespace Sys2Proof

/-- u4: a residual nibble, or a header field (R54, R58). -/
abbrev Nibble := BitVec 4

/-- u8: one DATA byte (R52). -/
abbrev Byte := BitVec 8

/-- The 10-bit token word (cmd, data) (R50). -/
abbrev TokenWord := BitVec 10

/-- s16: a sample, a history register or a coefficient (R5). -/
abbrev Sample := BitVec 16

/-- s32: the datapath's products, sum and scaled residual (R5 ACC_W, R20). -/
abbrev Acc := BitVec 32

end Sys2Proof
end

