-- ==== Sys2Proof/Syntax.lean ====
section
/-! DEFINITION. The operations of the opcode map (spec/30_encoding.md R62, spec/opcode_table.json), one constructor per row,
the four encoding formats, and the lines of the token assembly (R63, R64). -/

namespace Sys2Proof

/-- One constructor per row of the opcode map (R62). -/
inductive Instr where
  /-- DATA (TOK, cmd 00): one byte of the frame stream (R76). -/
  | data (b : Byte)
  /-- CLEAR (TOK, cmd 01): start a new stream; the data field is ignored (R88, R52). -/
  | clear (d : Byte)
  /-- END (TOK, cmd 10): end of stream; the data field is ignored (R89, R52). -/
  | endTok (d : Byte)
  /-- RSVD (TOK, cmd 11): reserved command, its data field is recorded (R90). -/
  | rsvd (d : Byte)
  /-- HDR.P0: header byte with table_index 0; `m` is shift_minus_8 (R78). -/
  | hdrP0 (m : Nibble)
  /-- HDR.P1: header byte with table_index 1 (R78). -/
  | hdrP1 (m : Nibble)
  /-- HDR.P2: header byte with table_index 2 (R78). -/
  | hdrP2 (m : Nibble)
  /-- HDR.P3: header byte with table_index 3 (R78). -/
  | hdrP3 (m : Nibble)
  /-- HDR.BAD47: header byte with table_index `t` in 4..7 (R79). -/
  | hdrBad47 (t m : Nibble)
  /-- HDR.BAD8F: header byte with table_index `t` in 8..15 (R79). -/
  | hdrBad8F (t m : Nibble)
  /-- RES: residual byte, high nibble for the even sample, low nibble for the odd one (R57, R82). -/
  | res (hi lo : Nibble)
  /-- SAMPLE (NIB): one residual nibble (R58, R65). -/
  | sample (n : Nibble)
  deriving DecidableEq, Repr

/-- The encoding formats of R62. -/
inductive Format where
  | tok
  | hdr
  | res
  | nib
  deriving DecidableEq, Repr

/-- A word of one of the four formats. Which format a word has is set by where it arrives (the token port, byte 0 of a
frame, bytes 1..14, a nibble of DECODE), never by a bit of the word (R59). -/
inductive Code where
  | tok (w : TokenWord)
  | hdr (b : Byte)
  | res (b : Byte)
  | nib (n : Nibble)
  deriving DecidableEq, Repr

/-- One line of the token assembly: the four tokens (R63) and the pseudo-instructions (R64). -/
inductive AsmLine where
  | data (b : Byte)
  | clear
  | endTok
  | rsvd (b : Byte)
  /-- `FRAME b0 b1 ... b14`. -/
  | frame (bs : List Byte)
  /-- `FRAME b0 rep(bb)`. -/
  | frameRep (b0 bb : Byte)
  /-- `BYTES b0 ... bn`. -/
  | bytes (bs : List Byte)
  /-- `STREAM <bytes>`. -/
  | stream (bs : List Byte)
  deriving DecidableEq, Repr

end Sys2Proof
end

