-- ==== Sys2Proof/WellFormed.lean ====
section
/-! DEFINITION. Which terms of the syntax stand for words of the opcode map (spec/30_encoding.md R56, R62) and which
assembly lines are no assembly error (R64). All other fields are as wide as their encoding, so every value is legal (R61). -/

namespace Sys2Proof

/-- Each illegal-header row covers its own table indices: 4..7 and 8..15 (R62). -/
def Instr.wellFormed : Instr → Bool
  | .data _ => true
  | .clear _ => true
  | .endTok _ => true
  | .rsvd _ => true
  | .hdrP0 _ => true
  | .hdrP1 _ => true
  | .hdrP2 _ => true
  | .hdrP3 _ => true
  | .hdrBad47 t _ => decide (4 ≤ t.toNat ∧ t.toNat ≤ 7)
  | .hdrBad8F t _ => decide (8 ≤ t.toNat)
  | .res _ _ => true
  | .sample _ => true

/-- "A `FRAME` with other than 15 bytes is an assembly error, not a token sequence" (R64). -/
def AsmLine.wellFormed : AsmLine → Bool
  | .data _ => true
  | .clear => true
  | .endTok => true
  | .rsvd _ => true
  | .frame bs => bs.length == 15
  | .frameRep _ _ => true
  | .bytes _ => true
  | .stream _ => true

end Sys2Proof
end

