-- ==== Sys2Proof/Decode.lean ====
section
/-! DEFINITION. The decoder and the encoder of the four formats (spec/30_encoding.md R50-R62), the opcode map as data, and
`decodeTableWord`. Every word of a format decodes (R51, R62); a number too wide for its format is rejected by name. -/

namespace Sys2Proof

/-- The cmd field, bits 9:8 of a token (R50). -/
def tokCmd (w : TokenWord) : BitVec 2 := w.extractLsb' 8 2

/-- The data field, bits 7:0 of a token (R50). -/
def tokData (w : TokenWord) : Byte := w.extractLsb' 0 8

/-- Bits 7:4 of a byte: table_index of a header (R54), the even sample's residual of a residual byte (R57). -/
def hiNibble (b : Byte) : Nibble := b.extractLsb' 4 4

/-- Bits 3:0 of a byte: shift_minus_8 of a header (R54), the odd sample's residual of a residual byte (R57). -/
def loNibble (b : Byte) : Nibble := b.extractLsb' 0 4

/-- TOK (R51). -/
def decodeTok (w : TokenWord) : Instr :=
  if tokCmd w = 0 then .data (tokData w)
  else if tokCmd w = 1 then .clear (tokData w)
  else if tokCmd w = 2 then .endTok (tokData w)
  else .rsvd (tokData w)

/-- HDR (R54, R56, R62): table_index 0..3 legal, 4..7 and 8..15 illegal. -/
def decodeHdr (b : Byte) : Instr :=
  if hiNibble b = 0 then .hdrP0 (loNibble b)
  else if hiNibble b = 1 then .hdrP1 (loNibble b)
  else if hiNibble b = 2 then .hdrP2 (loNibble b)
  else if hiNibble b = 3 then .hdrP3 (loNibble b)
  else if (hiNibble b).toNat < 8 then .hdrBad47 (hiNibble b) (loNibble b)
  else .hdrBad8F (hiNibble b) (loNibble b)

/-- The decoder: total, one operation for every word of every format (R51, R62). -/
def decode : Code → Instr
  | .tok w => decodeTok w
  | .hdr b => decodeHdr b
  | .res b => .res (hiNibble b) (loNibble b)
  | .nib n => .sample n

/-- A token word from its fields: `(cmd << 8) | data` (R50, R63). -/
def tokWord (cmd : BitVec 2) (data : Byte) : TokenWord := cmd ++ data

/-- The encoder, from the same tables: the word of an operation, with its format. -/
def encode : Instr → Code
  | .data b => .tok (tokWord 0 b)
  | .clear d => .tok (tokWord 1 d)
  | .endTok d => .tok (tokWord 2 d)
  | .rsvd d => .tok (tokWord 3 d)
  | .hdrP0 m => .hdr ((0 : Nibble) ++ m)
  | .hdrP1 m => .hdr ((1 : Nibble) ++ m)
  | .hdrP2 m => .hdr ((2 : Nibble) ++ m)
  | .hdrP3 m => .hdr ((3 : Nibble) ++ m)
  | .hdrBad47 t m => .hdr (t ++ m)
  | .hdrBad8F t m => .hdr (t ++ m)
  | .res hi lo => .res (hi ++ lo)
  | .sample n => .nib n

/-- The width of a format's words (R60). -/
def formatWidth : Format → Nat
  | .tok => 10
  | .hdr => 8
  | .res => 8
  | .nib => 4

/-- The format of a word. -/
def codeFormat : Code → Format
  | .tok _ => .tok
  | .hdr _ => .hdr
  | .res _ => .res
  | .nib _ => .nib

/-- The bits of a word as an unsigned number. -/
def codeBits : Code → Nat
  | .tok w => w.toNat
  | .hdr b => b.toNat
  | .res b => b.toNat
  | .nib n => n.toNat

/-- The word of format `f` whose bits are `w` (the low bits, where `w` is wider). -/
def codeOf (f : Format) (w : Nat) : Code :=
  match f with
  | .tok => .tok (BitVec.ofNat 10 w)
  | .hdr => .hdr (BitVec.ofNat 8 w)
  | .res => .res (BitVec.ofNat 8 w)
  | .nib => .nib (BitVec.ofNat 4 w)

/-- A row of the opcode map: a word of the row's format belongs to it when its masked bits are the pattern (R62). -/
structure OpcodeRow where
  mnemonic : String
  format : Format
  pattern : Nat
  mask : Nat
  deriving DecidableEq, Repr

/-- The complete opcode map (R62). -/
def opcodeMap : List OpcodeRow :=
  [⟨"DATA", .tok, 0x000, 0x300⟩, ⟨"CLEAR", .tok, 0x100, 0x300⟩, ⟨"END", .tok, 0x200, 0x300⟩, ⟨"RSVD", .tok, 0x300, 0x300⟩,
   ⟨"HDR.P0", .hdr, 0x00, 0xF0⟩, ⟨"HDR.P1", .hdr, 0x10, 0xF0⟩, ⟨"HDR.P2", .hdr, 0x20, 0xF0⟩, ⟨"HDR.P3", .hdr, 0x30, 0xF0⟩,
   ⟨"HDR.BAD47", .hdr, 0x40, 0xC0⟩, ⟨"HDR.BAD8F", .hdr, 0x80, 0x80⟩, ⟨"RES", .res, 0x00, 0x00⟩, ⟨"SAMPLE", .nib, 0x0, 0x0⟩]

/-- Whether a word belongs to a row. -/
def rowCovers (r : OpcodeRow) (c : Code) : Bool :=
  r.format == codeFormat c && (codeBits c &&& r.mask) == r.pattern

/-- The row's name of an operation (R62). -/
def mnemonic : Instr → String
  | .data _ => "DATA"
  | .clear _ => "CLEAR"
  | .endTok _ => "END"
  | .rsvd _ => "RSVD"
  | .hdrP0 _ => "HDR.P0"
  | .hdrP1 _ => "HDR.P1"
  | .hdrP2 _ => "HDR.P2"
  | .hdrP3 _ => "HDR.P3"
  | .hdrBad47 _ _ => "HDR.BAD47"
  | .hdrBad8F _ _ => "HDR.BAD8F"
  | .res _ _ => "RES"
  | .sample _ => "SAMPLE"

/-- Why a number is no word of a format. -/
inductive DecodeError where
  /-- The number has a bit above the format's width: a token is always 10 bits, a nibble always 4 (R60). Safe: nothing runs. -/
  | tooWide (f : Format)
  deriving DecidableEq, Repr

/-- Decode a number as a word of a format, rejecting by name one that is too wide (R60). -/
def decodeWord (f : Format) (w : Nat) : Except DecodeError Instr :=
  if w < 2 ^ formatWidth f then .ok (decode (codeOf f w)) else .error (.tooWide f)

/-- The format read from a row's number of bits: up to 4 a nibble, up to 8 a byte read as a header byte (the form of a DATA
byte at pos = 0, R59), up to 16 a token. DESIGN CHOICE: HDR and RES have the same width and no bit tells them apart; log
entry 15. -/
def tableFormat (nbits : Nat) : Option Format :=
  if nbits ≤ 4 then some .nib
  else if nbits ≤ 8 then some .hdr
  else if nbits ≤ 16 then some .tok
  else none

/-- What the decoder reads from a row's word of `nbits` bits. -/
def decodeTableWord (nbits w : Nat) : Option Instr :=
  (tableFormat nbits).bind fun f => (decodeWord f w).toOption

end Sys2Proof
end

