-- ==== Sys2Proof/Config.lean ====
section
/-! DEFINITION. The parameters of one block (spec/00_scope.md R5, R6) and the free values, which the spec leaves open
(spec/93_implementation_defined.md I4, I5). A free value is an opaque constant with no body, so no proof sees what it is. -/

namespace Sys2Proof

/-- FRAME_BYTES (R5): one header byte and 14 residual bytes. -/
def Config.frameBytes : Nat := 15

/-- SAMPLES_PER_FRAME (R5): two nibbles per residual byte. -/
def Config.samplesPerFrame : Nat := 28

/-- The reference value of the open parameter FRAME_CNT_W (R6, D13). DESIGN CHOICE: `State.reset` takes it; log entry 1. -/
def Config.frameCntWRef : Nat := 32

/-- The contents of fbuf after a reset step, unspecified (R116, R117, I4); log entry 3. -/
opaque Config.freeByte : Nat → Byte

/-- The status output hist1 while phase = DECODE, any value (R29, I5); log entry 4. -/
opaque Config.freeHist1 : Nat → Sample

/-- The status output hist2 while phase = DECODE, any value (R29, I5); log entry 4. -/
opaque Config.freeHist2 : Nat → Sample

/-- The status output frame_pos while phase = DECODE, any value (R29, I5); log entry 4. -/
opaque Config.freeFramePos : Nat → BitVec 4

/-- smp_data while no sample is offered, any value (R28, R98); log entry 4. -/
opaque Config.freeSmpData : Nat → Sample

end Sys2Proof
end

