-- ==== Sys2Proof/Machine/State.lean ====
section
/-! DEFINITION. The machine's state as plain data (spec/10_state.md R10), what the host drives at an edge (R26-R28), the
reasons a step can stop, and the state after reset (spec/70_reset_and_hazards.md R116, R117). -/

namespace Sys2Proof.Machine

/-- The sequencer mode (R19). The encoding 3 is never held (I11) and cannot be written down; log entry 9. -/
inductive Phase where
  /-- Taking tokens, building a frame in fbuf (0). -/
  | accept
  /-- Emitting the 28 samples of a completed frame (1). -/
  | decode
  /-- An error has been raised; the block waits for CLEAR or reset (2). -/
  | error
  deriving DecidableEq, Repr

/-- The error kinds of R101; their 2-bit codes are `errCode`. -/
inductive ErrKind where
  | none
  | truncatedInput
  | invalidPredictorIndex
  | reservedToken
  deriving DecidableEq, Repr

/-- What the host drives at one rising edge of clk: rst (R26), the token port (R27), smp_ready (R28). -/
structure Edge where
  rst : Bool
  tokValid : Bool
  tokCmd : BitVec 2
  tokData : Byte
  smpReady : Bool
  deriving DecidableEq, Repr

/-- The state. The first thirteen fields are the block's (R10); `frameCntW` is the open parameter of R6; the last five are the
model's own: the host's future and the record of the run. -/
structure State where
  /-- history_1, the most recently emitted sample (R11). -/
  h1 : Sample
  /-- history_2, the second most recently emitted sample (R12). -/
  h2 : Sample
  /-- The latched predictor table index (R15). -/
  tidx : BitVec 2
  /-- The latched shift_minus_8 (R15). -/
  shm8 : Nibble
  /-- The frame buffer (R16). -/
  fbuf : Vector Byte 15
  /-- The bytes of the current frame accepted so far, legal 0..14 (R17). -/
  pos : BitVec 4
  /-- The next nibble to decode in DECODE, legal 0..27 (R18). -/
  k : BitVec 5
  /-- The sequencer mode (R19). -/
  phase : Phase
  /-- The frames fully decoded since CLEAR or reset, modulo 2^FRAME_CNT_W (R21). -/
  frameCount : Nat
  /-- End of stream seen at a frame boundary (R22). -/
  done : Bool
  /-- The error kind (R23). -/
  errKind : ErrKind
  /-- The frame index recorded by the error (R24). -/
  errFrame : Nat
  /-- The detail recorded by the error (R25). -/
  errInfo : Byte
  /-- FRAME_CNT_W (R6): fixed for the instance, no step writes it; log entry 1. -/
  frameCntW : Nat
  /-- What the host drives at the coming edges, the next one first; log entry 5. -/
  edges : List Edge
  /-- The token offered at the last edge and not transferred, which the host must hold (R125); log entry 7. -/
  held : Option TokenWord
  /-- The edges consumed so far: the index of the free values and nothing else; log entry 3. -/
  draws : Nat
  /-- The samples transferred before the last CLEAR or reset, oldest first (R97, R98); log entry 13. -/
  earlier : List Sample
  /-- The samples transferred since the last CLEAR or reset, oldest first (R95); log entry 13. -/
  stream : List Sample
  deriving DecidableEq, Repr

/-- Why the machine stops with a fault. Neither is reached from reset (I12). -/
inductive Fault where
  /-- A byte is captured with pos = 15, which is never held (R17, I12). Raised by DATA and RES. Safe: the model stops. -/
  | illegalPos
  /-- A sample step with k of 28 or more, which is never held (R18, I12). Raised by the sample step and RES. Safe: the model
  stops. -/
  | illegalK
  deriving DecidableEq, Repr

/-- Why the machine gives a run no meaning. -/
inductive Refusal where
  /-- An instruction without a meaning yet. Raised by no arm of this model. Safe. -/
  | notModelled (mnemonic : String)
  /-- The host changed or withdrew an offered token before its transfer: "a model has no meaning for such a run" (R125, I8).
  Raised by the edge step. Safe: the model stops. -/
  | hostUnstable
  deriving DecidableEq, Repr

/-- The machine right after reset (R116, R117), with nothing offered by the host. fbuf is unspecified there: DESIGN CHOICE
zeros, log entry 2. FRAME_CNT_W: DESIGN CHOICE the reference value, log entry 1. -/
def State.reset : State where
  h1 := 0
  h2 := 0
  tidx := 0
  shm8 := 0
  fbuf := Vector.replicate 15 0
  pos := 0
  k := 0
  phase := .accept
  frameCount := 0
  done := false
  errKind := .none
  errFrame := 0
  errInfo := 0
  frameCntW := Config.frameCntWRef
  edges := []
  held := none
  draws := 0
  earlier := []
  stream := []

end Sys2Proof.Machine
end

