-- ==== Sys2Proof/Machine/Operands.lean ====
section
/-! DEFINITION. The operands of the sample datapath and its stages: the coefficient ROM and the values derived from the header
latch (spec/10_state.md R14, R15), the nibble select (spec/41_frame_decoder.md R81) and the scaler, the products, the
accumulator, the normaliser and the narrowing (spec/40_sample_datapath.md R65-R71). -/

namespace Sys2Proof.Machine

/-- The c1 column of the coefficient table (R14). -/
def romC1 (t : BitVec 2) : Sample :=
  if t = 0 then 0 else if t = 1 then 240 else if t = 2 then 460 else 392

/-- The c2 column of the coefficient table (R14). -/
def romC2 (t : BitVec 2) : Sample :=
  if t = 0 then 0 else if t = 1 then 0 else if t = 2 then BitVec.ofInt 16 (-208) else BitVec.ofInt 16 (-220)

/-- `shift = zext_5(shm8) + 8`, a value in 8..23 (R15, R55). -/
def shiftOf (m : Nibble) : BitVec 5 := m.setWidth 5 + 8

/-- `shl32(x, s)`: bits shifted out of bit 31 are discarded (R7). -/
def shl32 (x : Acc) (s : Nat) : Acc := x <<< s

/-- `asr(x, s)`: arithmetic right shift, rounding toward minus infinity (R7). -/
def asr (x : Acc) (s : Nat) : Acc := x.sshiftRight s

/-- The residual scaler `r = asr(shl32(zext_32(n), 28), shift)` (R66). -/
def scaledResidual (n m : Nibble) : Acc := asr (shl32 (n.setWidth 32) 28) (shiftOf m).toNat

/-- A predictor product `wrap_s32(sext_32(c) * sext_32(h))` (R68). -/
def tapProduct (c h : Sample) : Acc := c.signExtend 32 * h.signExtend 32

/-- The accumulator `acc = wrap_s32(r + p1 + p2)` (R69). -/
def accumulate (n : Nibble) (t : BitVec 2) (m : Nibble) (h1 h2 : Sample) : Acc :=
  scaledResidual n m + tapProduct (romC1 t) h1 + tapProduct (romC2 t) h2

/-- Q8 normalisation `q = asr(acc, 8)`, with no rounding constant (R70). -/
def normalise (acc : Acc) : Acc := asr acc 8

/-- Narrowing `s = wrap_s16(q)`: the low 16 bits, no saturation (R71). -/
def narrow (q : Acc) : Sample := q.setWidth 16

/-- The sample of R65. It depends on these five operands alone (R75). -/
def reconstruct (n : Nibble) (t : BitVec 2) (m : Nibble) (h1 h2 : Sample) : Sample :=
  narrow (normalise (accumulate n t m h1 h2))

/-- The half of a residual byte that step `k` decodes: the high nibble when k is even, the low one when it is odd (R81). -/
def selectNibble (k : BitVec 5) (b : Byte) : Nibble :=
  if k.toNat % 2 = 0 then hiNibble b else loNibble b

/-- The residual byte of step `k`, `fbuf[1 + (k >> 1)]` (R81); none for k of 28 or more, which has no byte. -/
def residualByte (s : State) : Option Byte :=
  if h : 1 + s.k.toNat / 2 < 15 then some s.fbuf[1 + s.k.toNat / 2] else none

/-- `Nibble(k)` (R81); none for k of 28 or more. -/
def nibbleAt (s : State) : Option Nibble := (residualByte s).map (selectNibble s.k)

/-- The sample that `smp_data` holds while it is offered: the one of the current k (R28, R80). -/
def sampleAt (s : State) : Option Sample :=
  (nibbleAt s).map fun n => reconstruct n s.tidx s.shm8 s.h1 s.h2

/-- A sample's byte image, low byte first (R38). -/
def sampleBytes (x : Sample) : List Byte := [x.extractLsb' 0 8, x.extractLsb' 8 8]

/-- The output byte stream of these samples: their byte images concatenated "with no framing or header", so that sample j is at
bytes 2j and 2j + 1 (R38, R95). -/
def outputBytes (xs : List Sample) : List Byte := xs.flatMap sampleBytes

/-- The output byte stream of the current stream, as a host that writes its samples out has it (R38; log entry 13). The block
itself emits no bytes. -/
def streamBytes (s : State) : List Byte := outputBytes s.stream

end Sys2Proof.Machine
end

