-- ==== Sys2Proof/Machine/Flags.lean ====
section
/-! DEFINITION. The status outputs (spec/10_state.md R29), the codes of the error kinds (spec/60_exceptions.md R101), the
frame counter's wrap (R7, R21) and the port outputs (R27, R28). The block has no arithmetic flags (R65). -/

namespace Sys2Proof.Machine

/-- `wrap_u(W, x)`: x mod 2^W (R7). -/
def wrapU (w x : Nat) : Nat := x % 2 ^ w

/-- The 2-bit code of an error kind (R101). -/
def errCode : ErrKind → BitVec 2
  | .none => 0
  | .truncatedInput => 1
  | .invalidPredictorIndex => 2
  | .reservedToken => 3

/-- The encoding of a phase (R19). -/
def phaseCode : Phase → BitVec 2
  | .accept => 0
  | .decode => 1
  | .error => 2

/-- The status outputs, as R29 lists them. -/
structure StatusLevels where
  busy : Bool
  done : Bool
  errKind : BitVec 2
  errFrame : Nat
  errInfo : Byte
  frameCount : Nat
  framePos : BitVec 4
  hist1 : Sample
  hist2 : Sample
  deriving DecidableEq, Repr

/-- What the status outputs show: err_frame and err_info are 0 without an error; frame_pos, hist1 and hist2 are free values
in DECODE (R29, I5; log entry 4). Reading them changes nothing (R42). -/
def statusLevels (s : State) : StatusLevels where
  busy := s.phase == .decode
  done := s.done
  errKind := errCode s.errKind
  errFrame := if s.errKind = .none then 0 else s.errFrame
  errInfo := if s.errKind = .none then 0 else s.errInfo
  frameCount := s.frameCount
  framePos := if s.phase = .decode then Config.freeFramePos s.draws else s.pos
  hist1 := if s.phase = .decode then Config.freeHist1 s.draws else s.h1
  hist2 := if s.phase = .decode then Config.freeHist2 s.draws else s.h2

/-- When tok_ready may be 1: rst = 0 and phase ACCEPT or ERROR (R27, R92, R118, C7). How long the block takes to raise it is
timing and is left out (log entry 6). -/
def tokReadyAllowed (rst : Bool) (s : State) : Bool := !rst && s.phase != .decode

/-- When smp_valid may be 1: rst = 0 and phase DECODE (R28, R118, C7; log entry 6). -/
def smpValidAllowed (rst : Bool) (s : State) : Bool := !rst && s.phase == .decode

/-- smp_data: the sample of the current k while one is offered (R28), else a free value (log entry 4). -/
def smpData (rst : Bool) (s : State) : Sample :=
  if smpValidAllowed rst s then (sampleAt s).getD (Config.freeSmpData s.draws) else Config.freeSmpData s.draws

end Sys2Proof.Machine
end

