-- ==== Sys2Proof/Machine/Ops.lean ====
section
/-! DEFINITION. The named operations over the state: the byte capture's writes, the header latch, error entry (spec/60_exceptions.md
R106) and the way out of it (R88, R109), the history shift (R72), the sample transfer (R80, R83, R95), the reset step (R116),
and the host's side of an edge (R125). -/

namespace Sys2Proof.Machine

/-- Continue with the next state, if there is one. -/
def andThen (o : Host.Outcome State Fault Refusal) (f : State → Host.Outcome State Fault Refusal) :
    Host.Outcome State Fault Refusal :=
  match o with
  | .next t => f t
  | .fault r => .fault r
  | .refused r => .refused r

/-- `done <- 0` and `fbuf[i] <- b` (R76). -/
def writeByte (i : Fin 15) (b : Byte) (s : State) : State :=
  { s with done := false, fbuf := s.fbuf.set i b }

/-- `pos <- p` (R76). -/
def setPos (p : BitVec 4) (s : State) : State := { s with pos := p }

/-- HeaderValid: latch the predictor and the shift, and start decoding (R78). -/
def headerValid (t : BitVec 2) (m : Nibble) (s : State) : State :=
  { s with tidx := t, shm8 := m, k := 0, phase := .decode }

/-- `raise E(info)`: error entry (R106). h1, h2 and frame_count are unchanged; the header latch and fbuf are not written
(log entry 14). -/
def errorEntry (e : ErrKind) (info : Byte) (s : State) : State :=
  { s with errKind := e, errFrame := s.frameCount, errInfo := info, pos := 0, k := 0, done := false, phase := .error }

/-- What CLEAR does: a new stream from zero history, and the way out of an error (R88, R109). The header latch and fbuf are
left as they are. The samples of the old stream stay transferred (R97). -/
def clearStream (s : State) : State :=
  { s with
    h1 := 0, h2 := 0, pos := 0, k := 0, frameCount := 0, done := false, errKind := .none, errFrame := 0, errInfo := 0,
    phase := .accept, earlier := s.earlier ++ s.stream, stream := [] }

/-- `done <- 1` (R89). -/
def markDone (s : State) : State := { s with done := true }

/-- The history shift `h2 <- h1; h1 <- x`, both at once (R72). -/
def shiftHistory (x : Sample) (s : State) : State := { s with h2 := s.h1, h1 := x }

/-- `emit(x)`: the host takes the sample x, the next of the stream (R95). -/
def emit (x : Sample) (s : State) : State := { s with stream := s.stream ++ [x] }

/-- `k <- k + 1` (R80). -/
def advanceK (s : State) : State := { s with k := s.k + 1 }

/-- Retire (R83). -/
def retire (s : State) : State :=
  { s with frameCount := wrapU s.frameCntW (s.frameCount + 1), k := 0, phase := .accept }

/-- The rest of the sample step after SAMPLE (R80): emit the sample, which SAMPLE left in h1 (R11), then advance k or retire. -/
def finishSample (s : State) : State :=
  if s.k.toNat < 27 then advanceK (emit s.h1 s) else retire (emit s.h1 s)

/-- The reset step (R116): every element at its reset value, fbuf at free values (log entry 3). A sample offered and not
transferred is not transferred; a token offered is not taken and the host's duty to hold it ends (R118, R125). -/
def resetStep (s : State) : State :=
  { s with
    h1 := 0, h2 := 0, tidx := 0, shm8 := 0, fbuf := Vector.ofFn fun i => Config.freeByte (15 * s.draws + i.val), pos := 0, k := 0,
    phase := .accept, frameCount := 0, done := false, errKind := .none, errFrame := 0, errInfo := 0, held := none,
    earlier := s.earlier ++ s.stream, stream := [] }

/-- The edge at the head of the host's list is past; the index of the free values moves on. -/
def consumeEdge (rest : List Edge) (s : State) : State := { s with edges := rest, draws := s.draws + 1 }

/-- Remember the token the host must hold (R125); none when nothing is offered, or it was transferred. -/
def setHeld (o : Option TokenWord) (s : State) : State := { s with held := o }

/-- The token offered at an edge: `{tok_cmd, tok_data}` while tok_valid = 1 (R27, R50). -/
def offer (e : Edge) : Option TokenWord := if e.tokValid then some (tokWord e.tokCmd e.tokData) else none

/-- The host keeps its duty at an edge: an offered, untransferred token is still offered, unchanged (R125). -/
def hostStable (e : Edge) (s : State) : Bool := s.held.isNone || s.held == offer e

/-- The host asserts rst for one edge (R26). -/
def resetEdge : Edge := ⟨true, false, 0, 0, false⟩

/-- The host offers nothing and takes no sample. -/
def idleEdge : Edge := ⟨false, false, 0, 0, false⟩

/-- The host offers nothing and takes a sample if one is offered. -/
def takeEdge : Edge := ⟨false, false, 0, 0, true⟩

/-- The host offers the token `w` and takes a sample if one is offered. -/
def offerEdge (w : TokenWord) : Edge := ⟨false, true, tokCmd w, tokData w, true⟩

/-- A host that offers these tokens in order and leaves room for the 28 samples of a frame after each: where no frame has
completed, the take edges change nothing (R30, R126). -/
def playTokens (ws : List TokenWord) : List Edge :=
  ws.flatMap fun w => offerEdge w :: List.replicate Config.samplesPerFrame takeEdge

end Sys2Proof.Machine
end

