-- ==== Sys2Proof/Machine/Control.lean ====
section
/-! DEFINITION. The control tokens CLEAR, END and RSVD by phase (spec/42_stream_control.md R88-R92). In DECODE no token is
taken: it waits, and nothing changes (R92; log entry 12). -/

namespace Sys2Proof.Machine

/-- CLEAR (R88): in ACCEPT and in ERROR; the data field is ignored (R52). -/
def execClear (_d : Byte) (s : State) : Host.Outcome State Fault Refusal :=
  match s.phase with
  | .accept => .next (clearStream s)
  | .decode => .next s
  | .error => .next (clearStream s)

/-- END (R89): done at a frame boundary, TRUNCATED_INPUT with the byte count inside a frame; discarded in ERROR (R91). -/
def execEndTok (_d : Byte) (s : State) : Host.Outcome State Fault Refusal :=
  match s.phase with
  | .accept => if s.pos = 0 then .next (markDone s) else .next (errorEntry .truncatedInput (s.pos.setWidth 8) s)
  | .decode => .next s
  | .error => .next s

/-- RSVD (R90): RESERVED_TOKEN with the data field; discarded in ERROR (R91). -/
def execRsvd (d : Byte) (s : State) : Host.Outcome State Fault Refusal :=
  match s.phase with
  | .accept => .next (errorEntry .reservedToken d s)
  | .decode => .next s
  | .error => .next s

end Sys2Proof.Machine
end

