-- ==== Sys2Proof/Machine/Header.lean ====
section
/-! DEFINITION. The header rows (spec/41_frame_decoder.md R78, R79) and FrameComplete, which runs one of them on the frame's
header byte inside the DATA step that takes byte 14 (R77). Each row's meaning is its pseudocode in any state (log entry 10). -/

namespace Sys2Proof.Machine

/-- HDR.P0 (R78): predictor (0, 0). -/
def execHdrP0 (m : Nibble) (s : State) : Host.Outcome State Fault Refusal := .next (headerValid 0 m s)

/-- HDR.P1 (R78): predictor (240, 0). -/
def execHdrP1 (m : Nibble) (s : State) : Host.Outcome State Fault Refusal := .next (headerValid 1 m s)

/-- HDR.P2 (R78): predictor (460, -208). -/
def execHdrP2 (m : Nibble) (s : State) : Host.Outcome State Fault Refusal := .next (headerValid 2 m s)

/-- HDR.P3 (R78): predictor (392, -220). -/
def execHdrP3 (m : Nibble) (s : State) : Host.Outcome State Fault Refusal := .next (headerValid 3 m s)

/-- HDR.BAD47 (R79): INVALID_PREDICTOR_INDEX with the header byte. -/
def execHdrBad47 (t m : Nibble) (s : State) : Host.Outcome State Fault Refusal :=
  .next (errorEntry .invalidPredictorIndex (t ++ m) s)

/-- HDR.BAD8F (R79): INVALID_PREDICTOR_INDEX with the header byte. -/
def execHdrBad8F (t m : Nibble) (s : State) : Host.Outcome State Fault Refusal :=
  .next (errorEntry .invalidPredictorIndex (t ++ m) s)

/-- Run the header row of the byte `hb`, by its table_index (R77). -/
def runHeader (hb : Byte) (s : State) : Host.Outcome State Fault Refusal :=
  if hiNibble hb = 0 then execHdrP0 (loNibble hb) s
  else if hiNibble hb = 1 then execHdrP1 (loNibble hb) s
  else if hiNibble hb = 2 then execHdrP2 (loNibble hb) s
  else if hiNibble hb = 3 then execHdrP3 (loNibble hb) s
  else if (hiNibble hb).toNat < 8 then execHdrBad47 (hiNibble hb) (loNibble hb) s
  else execHdrBad8F (hiNibble hb) (loNibble hb) s

/-- FrameComplete (R77): the header byte is fbuf[0]. -/
def frameComplete (s : State) : Host.Outcome State Fault Refusal := runHeader s.fbuf[0] s

end Sys2Proof.Machine
end

