-- ==== Sys2Proof/Machine/Sample.lean ====
section
/-! DEFINITION. SAMPLE (spec/40_sample_datapath.md R65) and the sample step that performs it (spec/41_frame_decoder.md R80). -/

namespace Sys2Proof.Machine

/-- SAMPLE on the nibble `n`: the sample from the header latch and the old history, then the history shift (R65, R72). -/
def sampleOp (n : Nibble) (s : State) : State :=
  shiftHistory (reconstruct n s.tidx s.shm8 s.h1 s.h2) s

/-- The sample step on the nibble `n`: SAMPLE, emit, advance (R80). -/
def sampleStep (n : Nibble) (s : State) : State := finishSample (sampleOp n s)

/-- SAMPLE (R65): total over all operand values (R73); its result is the new h1. The edge step performs it in DECODE and
emits the result (R80; log entry 10). -/
def execSample (n : Nibble) (s : State) : Host.Outcome State Fault Refusal := .next (sampleOp n s)

end Sys2Proof.Machine
end

