-- ==== Sys2Proof/Machine/Intake.lean ====
section
/-! DEFINITION. DATA and RES (spec/41_frame_decoder.md R76, R82): the capture of a stream byte, and a residual byte's two
samples. -/

namespace Sys2Proof.Machine

/-- Capture a byte at pos (R76): bytes 0..13 advance pos, byte 14 completes the frame. pos = 15 is never held and faults
(I12). -/
def captureByte (b : Byte) (s : State) : Host.Outcome State Fault Refusal :=
  if h : s.pos.toNat < 15 then
    if s.pos.toNat < 14 then .next (setPos (s.pos + 1) (writeByte ⟨s.pos.toNat, h⟩ b s))
    else frameComplete (setPos 0 (writeByte ⟨s.pos.toNat, h⟩ b s))
  else .fault .illegalPos

/-- DATA by phase: captured in ACCEPT (R76), discarded in ERROR (R91), not taken in DECODE, where it waits (R92; log entry
12). -/
def execData (b : Byte) (s : State) : Host.Outcome State Fault Refusal :=
  match s.phase with
  | .accept => captureByte b s
  | .decode => .next s
  | .error => .next s

/-- RES by phase (R82; log entry 11). In ACCEPT the byte is stored, and nothing is computed. In DECODE it gives one of its two
samples: k even the high nibble, k odd the low one (R80, R81); k of 28 or more faults (I12). In ERROR the byte is discarded
(R91). -/
def execRes (hi lo : Nibble) (s : State) : Host.Outcome State Fault Refusal :=
  match s.phase with
  | .accept => captureByte (hi ++ lo) s
  | .decode => if s.k.toNat < 28 then .next (sampleStep (selectNibble s.k (hi ++ lo)) s) else .fault .illegalK
  | .error => .next s

end Sys2Proof.Machine
end

