-- ==== Sys2Proof/Machine/Dispatch.lean ====
section
/-! DEFINITION. One arm per operation of the opcode map (spec/30_encoding.md R62). -/

namespace Sys2Proof.Machine

def exec (i : Instr) (s : State) : Host.Outcome State Fault Refusal :=
  match i with
  | .data b => Sys2Proof.Machine.execData b s
  | .clear d => Sys2Proof.Machine.execClear d s
  | .endTok d => Sys2Proof.Machine.execEndTok d s
  | .rsvd d => Sys2Proof.Machine.execRsvd d s
  | .hdrP0 m => Sys2Proof.Machine.execHdrP0 m s
  | .hdrP1 m => Sys2Proof.Machine.execHdrP1 m s
  | .hdrP2 m => Sys2Proof.Machine.execHdrP2 m s
  | .hdrP3 m => Sys2Proof.Machine.execHdrP3 m s
  | .hdrBad47 t m => Sys2Proof.Machine.execHdrBad47 t m s
  | .hdrBad8F t m => Sys2Proof.Machine.execHdrBad8F t m s
  | .res hi lo => Sys2Proof.Machine.execRes hi lo s
  | .sample n => Sys2Proof.Machine.execSample n s

end Sys2Proof.Machine
end

