-- ==== Sys2Proof/Machine/Transfer.lean ====
section
/-! DEFINITION. What one rising edge of clk does (spec/00_scope.md R9, spec/10_state.md R30): a reset, a token transfer, a
sample transfer, or nothing. -/

namespace Sys2Proof.Machine

/-- A token transfer (TokIn): the block takes `w` and runs the operation it decodes to, whole (R41, R51). -/
def tokenTransfer (w : TokenWord) (s : State) : Host.Outcome State Fault Refusal :=
  exec (decode (.tok w)) (setHeld none s)

/-- A sample transfer (SmpOut, R80): run SAMPLE on the nibble of the current k, then emit and advance. k of 28 or more has no
nibble and faults (I12). -/
def sampleTransfer (s : State) : Host.Outcome State Fault Refusal :=
  match nibbleAt s with
  | some n => andThen (exec (decode (.nib n)) s) fun t => .next (finishSample t)
  | none => .fault .illegalK

/-- An edge with rst = 0 and a host that keeps its duty. In DECODE a sample moves when the host takes it, and an offered token
waits (R92, R100). In ACCEPT and ERROR an offered token moves (R27). Without a transfer nothing of the block changes (R30). -/
def handshake (e : Edge) (s : State) : Host.Outcome State Fault Refusal :=
  match s.phase with
  | .decode => if e.smpReady then sampleTransfer (setHeld (offer e) s) else .next (setHeld (offer e) s)
  | .accept => match offer e with | some w => tokenTransfer w s | none => .next (setHeld none s)
  | .error => match offer e with | some w => tokenTransfer w s | none => .next (setHeld none s)

/-- One rising edge. rst = 1 is the reset step, whatever the handshake signals hold (R116, R118). A host that changes or
withdraws an untransferred token gives the run no meaning (R125, I8). -/
def edgeStep (e : Edge) (s : State) : Host.Outcome State Fault Refusal :=
  if e.rst then .next (resetStep s)
  else if hostStable e s then handshake e s
  else .refused .hostUnstable

/-- The next edge of the host's list. When nothing more is listed the host offers nothing and takes nothing, and the block
idles with all state held (R115). -/
def nextEdge (s : State) : Host.Outcome State Fault Refusal :=
  match s.edges with
  | [] => .next s
  | e :: rest => edgeStep e (consumeEdge rest s)

/-- Place an operation's word where the next step runs it (log entry 16). A token: the phase takes tokens and the host offers
it. A header byte: the frame's byte 0 with byte 14 about to arrive. A residual byte or a nibble: the sample steps of frame
byte 1 are next, and the host takes the sample. -/
def placeCode (c : Code) (s : State) : State :=
  match c with
  | .tok w => { s with phase := if s.phase = .decode then .accept else s.phase, held := none, edges := offerEdge w :: s.edges }
  | .hdr b => { s with phase := .accept, pos := 14, fbuf := s.fbuf.set 0 b, held := none,
                       edges := offerEdge (tokWord 0 0) :: s.edges }
  | .res b => { s with phase := .decode, k := 0, fbuf := s.fbuf.set 1 b, held := none, edges := takeEdge :: s.edges }
  | .nib n => { s with phase := .decode, k := 0, fbuf := s.fbuf.set 1 (n ++ (0 : Nibble)), held := none,
                       edges := takeEdge :: s.edges }

/-- Place a table row's word; a number that is no word of its format (R60) changes nothing. -/
def placeTableWord (nbits w : Nat) (s : State) : State :=
  match tableFormat nbits with
  | some f => if w < 2 ^ formatWidth f then placeCode (codeOf f w) s else s
  | none => s

end Sys2Proof.Machine
end

