-- ==== Sys2Proof/Machine/Asm.lean ====
section
/-! DEFINITION. The token assembly (spec/30_encoding.md R63, R64, D30): the expansion of a line into token words, and the
reading of a line's text. -/

namespace Sys2Proof.Machine

/-- Why a line is no token sequence. -/
inductive AsmError where
  /-- "A `FRAME` with other than 15 bytes is an assembly error, not a token sequence" (R64). -/
  | frameLength
  /-- The text is no line of R63 or R64. -/
  | noSuchLine
  deriving DecidableEq, Repr

/-- One DATA token per byte (R64). -/
def dataWords (bs : List Byte) : List TokenWord := bs.map fun b => tokWord 0 b

/-- The token words of a line (R63, R64). -/
def expandLine : AsmLine → Except AsmError (List TokenWord)
  | .data b => .ok [tokWord 0 b]
  | .clear => .ok [tokWord 1 0]
  | .endTok => .ok [tokWord 2 0]
  | .rsvd b => .ok [tokWord 3 b]
  | .frame bs => if bs.length = Config.frameBytes then .ok (dataWords bs) else .error .frameLength
  | .frameRep b0 bb => .ok (dataWords (b0 :: List.replicate 14 bb))
  | .bytes bs => .ok (dataWords bs)
  | .stream bs => .ok (tokWord 1 0 :: dataWords bs ++ [tokWord 2 0])

/-- A hex digit, of either case (R63). -/
def hexDigit (c : Char) : Option Nat :=
  let n := c.toNat
  if 48 ≤ n ∧ n ≤ 57 then some (n - 48)
  else if 65 ≤ n ∧ n ≤ 70 then some (n - 55)
  else if 97 ≤ n ∧ n ≤ 102 then some (n - 87)
  else none

/-- A byte of two hex digits, `HH`. -/
def hexByte : List Char → Option Byte
  | [a, b] => (hexDigit a).bind fun x => (hexDigit b).map fun y => BitVec.ofNat 8 (16 * x + y)
  | _ => none

/-- An operand `0xHH` (R63). -/
def hexOperand : List Char → Option Byte
  | '0' :: 'x' :: ds => hexByte ds
  | _ => none

/-- A repetition `rep(bb)` (R64). -/
def repOperand : List Char → Option Byte
  | ['r', 'e', 'p', '(', a, b, ')'] => hexByte [a, b]
  | _ => none

/-- A list of bytes, each of two hex digits. -/
def hexBytes : List (List Char) → Option (List Byte)
  | [] => some []
  | w :: ws => (hexByte w).bind fun b => (hexBytes ws).map fun bs => b :: bs

/-- The text before the comment that `;` starts (R63). -/
def stripComment : List Char → List Char
  | [] => []
  | c :: cs => if c = ';' then [] else c :: stripComment cs

/-- The words of a line, separated by blanks; `acc` is the word being read, backwards. -/
def lineWords (acc : List Char) : List Char → List (List Char)
  | [] => if acc.isEmpty then [] else [acc.reverse]
  | c :: cs =>
    if c = ' ' ∨ c = '\t' then if acc.isEmpty then lineWords [] cs else acc.reverse :: lineWords [] cs
    else lineWords (c :: acc) cs

/-- The operands of `FRAME`: fifteen bytes, or a byte and a repetition (R64). -/
def frameLine (ws : List (List Char)) : Option AsmLine :=
  match ws with
  | [w0, w1] =>
    match hexByte w0, repOperand w1 with
    | some b0, some bb => some (.frameRep b0 bb)
    | _, _ => (hexBytes ws).map .frame
  | _ => (hexBytes ws).map .frame

/-- A line from its words. -/
def lineOfWords : List (List Char) → Option AsmLine
  | ['D', 'A', 'T', 'A'] :: [w] => (hexOperand w).map .data
  | [['C', 'L', 'E', 'A', 'R']] => some .clear
  | [['E', 'N', 'D']] => some .endTok
  | ['R', 'S', 'V', 'D'] :: [w] => (hexOperand w).map .rsvd
  | ['F', 'R', 'A', 'M', 'E'] :: ws => frameLine ws
  | ['B', 'Y', 'T', 'E', 'S'] :: ws => (hexBytes ws).map .bytes
  | ['S', 'T', 'R', 'E', 'A', 'M'] :: ws => (hexBytes ws).map .stream
  | _ => none

/-- The token words of a line's text: none for a blank or comment line (R63, R64; log entry 19). -/
def assembleLine (text : List Char) : Except AsmError (List TokenWord) :=
  match lineWords [] (stripComment text) with
  | [] => .ok []
  | ws => match lineOfWords ws with
    | some l => expandLine l
    | none => .error .noSuchLine

/-- The token words of a program, line after line; the first error stands. -/
def assemble : List (List Char) → Except AsmError (List TokenWord)
  | [] => .ok []
  | l :: ls => match assembleLine l, assemble ls with
    | .ok ws, .ok rest => .ok (ws ++ rest)
    | .error r, _ => .error r
    | .ok _, .error r => .error r

end Sys2Proof.Machine
end

