-- ==== Sys2Proof/Safety.lean ====
section
/-! DEFINITION. What claims are stated in: the invariants of spec/10_state.md R31, the record of the stream (R86, R93, R107),
the states reached from reset, how a run ends (spec/42_stream_control.md R98), the phase transition table (R128), and the
decoder of the source on mathematical integers (spec/40_sample_datapath.md R66-R72, spec/20_memory.md R35-R37). -/

namespace Sys2Proof.Safety

open Sys2Proof.Machine

/-- The six items of R31, and that the two frame numbers fit FRAME_CNT_W bits (R21, R24). -/
structure StateInvariant (s : State) : Prop where
  error_iff : s.phase = .error ↔ s.errKind ≠ .none
  pos_zero : s.phase = .decode ∨ s.phase = .error → s.pos = 0
  k_zero : s.phase ≠ .decode → s.k = 0
  done_boundary : s.done = true → s.phase = .accept ∧ s.pos = 0
  pos_le : s.pos.toNat ≤ 14
  k_le : s.k.toNat ≤ 27
  no_error_zero : s.errKind = .none → s.errFrame = 0 ∧ s.errInfo = 0
  frameCount_lt : s.frameCount < 2 ^ s.frameCntW
  errFrame_lt : s.errFrame < 2 ^ s.frameCntW

/-- The last sample of a list, 0 for the empty list. -/
def lastSample (xs : List Sample) : Sample := xs.reverse.headD 0

/-- The second-to-last sample of a list, 0 where there is none. -/
def secondLastSample (xs : List Sample) : Sample := xs.reverse.tail.headD 0

/-- The history holds the last two samples of the stream, zero before the first (R72, R86, R107); the samples transferred
since CLEAR or reset are 28 per frame and k of the current one, as far as the counter's width tells (R84, R93); an error
names the frame it concerns (R106, R107). -/
structure StreamInvariant (s : State) : Prop where
  h1_last : s.h1 = lastSample s.stream
  h2_second : s.h2 = secondLastSample s.stream
  count : s.stream.length % (28 * 2 ^ s.frameCntW) = (28 * s.frameCount + s.k.toNat) % (28 * 2 ^ s.frameCntW)
  err_frame : s.phase = .error → s.errFrame = s.frameCount

/-- A run starts at the reset state (R119), with any FRAME_CNT_W (R6) and any future of the host (R99). -/
inductive Reachable : State → Prop where
  | reset (w : Nat) (es : List Edge) : Reachable { State.reset with frameCntW := w, edges := es }
  | step {s t : State} : Reachable s → step s = .next t → Reachable t

/-- The samples transferred in the whole run, oldest first (R97, R98). -/
def sent (s : State) : List Sample := s.earlier ++ s.stream

/-- The result of a run: the samples transferred, and the state at its end read through the status outputs (R98). -/
def runResult (s : State) : List Sample × StatusLevels := (sent s, statusLevels s)

/-- A run ends at a state with phase ≠ DECODE that no further token is offered to (R98): none is held over from the edges
before, which the host must go on offering (R125), and none is offered at an edge ahead. A reset ahead is no token; it starts
the block anew and does not undo the end. -/
def runEnded (s : State) : Prop := s.phase ≠ .decode ∧ s.held = none ∧ ∀ e ∈ s.edges, offer e = none

/-- "The run has succeeded if done = 1 and err_kind = 0" (R98). -/
def runSucceeded (s : State) : Prop := runEnded s ∧ s.done = true ∧ s.errKind = .none

/-- "and has failed if err_kind ≠ 0" (R98). -/
def runFailed (s : State) : Prop := runEnded s ∧ s.errKind ≠ .none

/-- The events of the phase transition table (R128). -/
inductive Event where
  | dataEarly
  | dataLastValid
  | dataLastInvalid
  | clear
  | endBoundary
  | endInside
  | rsvd
  | sampleEarly
  | sampleLast
  | errorDiscard
  | reset
  | noTransfer
  deriving DecidableEq, Repr

/-- The event of a token taken in ACCEPT. -/
def acceptEvent (w : TokenWord) (s : State) : Event :=
  if tokCmd w = 0 then
    if s.pos.toNat < 14 then .dataEarly
    else if (hiNibble s.fbuf[0]).toNat ≤ 3 then .dataLastValid else .dataLastInvalid
  else if tokCmd w = 1 then .clear
  else if tokCmd w = 2 then if s.pos = 0 then .endBoundary else .endInside
  else .rsvd

/-- The event of an edge (R128). -/
def eventOf (e : Edge) (s : State) : Event :=
  if e.rst then .reset
  else match s.phase, offer e with
    | .decode, _ => if e.smpReady then (if s.k.toNat < 27 then .sampleEarly else .sampleLast) else .noTransfer
    | .accept, some w => acceptEvent w s
    | .error, some w => if tokCmd w = 1 then .clear else .errorDiscard
    | .accept, none => .noTransfer
    | .error, none => .noTransfer

/-- The "to" column of R128. -/
def phaseAfter (p : Phase) : Event → Phase
  | .dataEarly => .accept
  | .dataLastValid => .decode
  | .dataLastInvalid => .error
  | .clear => .accept
  | .endBoundary => .accept
  | .endInside => .error
  | .rsvd => .error
  | .sampleEarly => .decode
  | .sampleLast => .accept
  | .errorDiscard => .error
  | .reset => .accept
  | .noTransfer => p

/-- c1 of a table row, an integer (R14). -/
def coefC1 (t : Nat) : Int := if t = 0 then 0 else if t = 1 then 240 else if t = 2 then 460 else 392

/-- c2 of a table row, an integer (R14). -/
def coefC2 (t : Nat) : Int := if t = 0 then 0 else if t = 1 then 0 else if t = 2 then -208 else -220

/-- The accumulator in exact integers: `sext(n) * 2^(28 - shift) + c1*h1 + c2*h2` with shift = m + 8 (R67-R69). -/
def exactAcc (t m : Nat) (n h1 h2 : Int) : Int := n * 2 ^ (20 - m) + coefC1 t * h1 + coefC2 t * h2

/-- The sample in exact integers: floor(acc / 256) (R70), then the representative modulo 2^16 in -32768..32767 (R71). -/
def exactSample (t m : Nat) (n h1 h2 : Int) : Int := Int.bmod (exactAcc t m n h1 h2 / 256) (2 ^ 16)

/-- The samples of a list of nibbles from a history, in order, each seeing the one before (R72, R121). -/
def exactSamples (t m : Nat) : List Int → Int → Int → List Int
  | [], _, _ => []
  | n :: ns, h1, h2 => exactSample t m n h1 h2 :: exactSamples t m ns (exactSample t m n h1 h2) h1

/-- The 28 residuals of a frame: bytes 1..14 in order, high nibble first (R35, R36, R84). -/
def frameResiduals (fb : Vector Byte 15) : List Int :=
  fb.toList.tail.flatMap fun b => [(hiNibble b).toInt, (loNibble b).toInt]

/-- The samples of a frame with header byte `hb` and these 14 residual bytes, from a history (R35, R54). -/
def exactFrame (hb : Byte) (rs : Vector Byte 14) (h1 h2 : Int) : List Int :=
  exactSamples (hb.toNat / 16) (hb.toNat % 16)
    (rs.toList.flatMap fun b => [(hiNibble b).toInt, (loNibble b).toInt]) h1 h2

/-- The samples of a stream of frames, the history carried across frames (R86, R93). -/
def exactStream : List (Byte × Vector Byte 14) → Int → Int → List Int
  | [], _, _ => []
  | f :: fs, h1, h2 =>
    exactFrame f.1 f.2 h1 h2 ++
      exactStream fs ((exactFrame f.1 f.2 h1 h2).reverse.headD h1) ((exactFrame f.1 f.2 h1 h2).reverse.tail.headD h2)

/-- The SAMPLE datapath in the widths that R74 says suffice: a 24-bit scaled residual, 25-bit products, a 26-bit accumulator. -/
def narrowDatapath (n : Nibble) (t : BitVec 2) (m : Nibble) (h1 h2 : Sample) : Sample :=
  let r : BitVec 24 := n.signExtend 24 <<< (20 - m.toNat)
  let p1 : BitVec 25 := (romC1 t).signExtend 25 * h1.signExtend 25
  let p2 : BitVec 25 := (romC2 t).signExtend 25 * h2.signExtend 25
  let acc : BitVec 26 := r.signExtend 26 + p1.signExtend 26 + p2.signExtend 26
  let q : BitVec 18 := (acc.sshiftRight 8).setWidth 18
  q.setWidth 16

end Sys2Proof.Safety
end

