-- ==== Sys2Proof/Certificates/Slice0/Obligations.lean ====
section
/-! DEFINITION. The statements for the provers. Each docstring names the rule of spec/ it formalises. The fields `edges`, `held`,
`draws`, `earlier` and `stream` are the model's own record of the host and of the run (log entries 3, 5, 7, 13): where a
statement gives a whole next state, it gives them too, as the model's convention. No statement rests on a free value or on the
value of the counter `draws`. -/

open Sys2Proof Sys2Proof.Machine Sys2Proof.Safety

/-! ### Encodings (spec/30_encoding.md) -/

/-- Every operation of the opcode map comes back from its word (R51, R54, R57, R58, R62). -/
def Obligations.DecodeOfEncode : Prop :=
  ∀ i : Instr, i.wellFormed = true → decode (encode i) = i

/-- Every word of every format has one operation, which is well formed and encodes back to that word (R51, R62). -/
def Obligations.EncodeOfDecode : Prop :=
  ∀ c : Code, (decode c).wellFormed = true ∧ encode (decode c) = c

/-- "The rows of each format cover all its values exactly once" (R62), and the decoder follows the row. -/
def Obligations.OpcodeRowsCoverOnce : Prop :=
  ∀ c : Code, ∃ r ∈ opcodeMap, rowCovers r c = true ∧ r.mnemonic = mnemonic (decode c) ∧
    ∀ r' ∈ opcodeMap, rowCovers r' c = true → r' = r

/-- R50, R51: cmd in bits 9:8 selects the operation, data is bits 7:0, and the word is `(cmd << 8) | data` (R63). -/
def Obligations.TokenDecodesByCommand : Prop :=
  ∀ w : TokenWord,
    (w.toNat / 256 = 0 → decode (.tok w) = .data (BitVec.ofNat 8 w.toNat)) ∧
    (w.toNat / 256 = 1 → decode (.tok w) = .clear (BitVec.ofNat 8 w.toNat)) ∧
    (w.toNat / 256 = 2 → decode (.tok w) = .endTok (BitVec.ofNat 8 w.toNat)) ∧
    (w.toNat / 256 = 3 → decode (.tok w) = .rsvd (BitVec.ofNat 8 w.toNat)) ∧
    ∀ (c : BitVec 2) (d : Byte), (tokWord c d).toNat = 256 * c.toNat + d.toNat

/-- Words written out from R50, R54, R57 and R58 (spec/95_test_vectors.md 2.1, 2.2, 2.4). -/
def Obligations.SpecWordsDecode : Prop :=
  decode (.tok 0b0000111100#10) = .data 0x3C ∧ decode (.tok 0b0110100101#10) = .clear 0xA5 ∧
  decode (.tok 0b1011111111#10) = .endTok 0xFF ∧ decode (.tok 0b1101011010#10) = .rsvd 0x5A ∧
  decode (.hdr 0b00101111#8) = .hdrP2 0xF ∧ decode (.hdr 0b01011100#8) = .hdrBad47 5 0xC ∧
  decode (.hdr 0b11000011#8) = .hdrBad8F 0xC 3 ∧ decode (.res 0b10000000#8) = .res 8 0 ∧
  decode (.nib 0b1111#4) = .sample 15

/-! ### The sample datapath (spec/40_sample_datapath.md) -/

/-- R67: the scaler is exact, `r = sext_32(n) * 2^(28 - shift)`, in its range, and equals `sext(n)` placed at bit 20 - shm8. -/
def Obligations.ScalerIsExact : Prop :=
  ∀ n m : Nibble,
    -8 ≤ n.toInt ∧ n.toInt ≤ 7 ∧
    (shiftOf m).toNat = m.toNat + 8 ∧
    (scaledResidual n m).toInt = n.toInt * 2 ^ (28 - (shiftOf m).toNat) ∧
    5 ≤ 28 - (shiftOf m).toNat ∧ 28 - (shiftOf m).toNat ≤ 20 ∧
    -8 * 2 ^ (28 - (shiftOf m).toNat) ≤ (scaledResidual n m).toInt ∧
    (scaledResidual n m).toInt ≤ 7 * 2 ^ (28 - (shiftOf m).toNat) ∧
    scaledResidual n m = n.signExtend 32 <<< (20 - m.toNat)

/-- R68: both products are exact, at most 15,073,280 in magnitude, and so fit 25 signed bits. -/
def Obligations.ProductsAreExact : Prop :=
  ∀ (t : BitVec 2) (h : Sample),
    (tapProduct (romC1 t) h).toInt = (romC1 t).toInt * h.toInt ∧
    (tapProduct (romC2 t) h).toInt = (romC2 t).toInt * h.toInt ∧
    |(tapProduct (romC1 t) h).toInt| ≤ 15073280 ∧ |(tapProduct (romC2 t) h).toInt| ≤ 15073280 ∧
    (15073280 : Int) < 2 ^ 24

/-- R69: the sum never wraps; its range, and the operands that reach both ends. -/
def Obligations.AccumulatorNeverWraps : Prop :=
  (∀ (n : Nibble) (t : BitVec 2) (m : Nibble) (h1 h2 : Sample),
    (accumulate n t m h1 h2).toInt =
      (scaledResidual n m).toInt + (tapProduct (romC1 t) h1).toInt + (tapProduct (romC2 t) h2).toInt ∧
    -30277424 ≤ (accumulate n t m h1 h2).toInt ∧ (accumulate n t m h1 h2).toInt ≤ 29228596) ∧
  (accumulate 7 2 0 32767 (BitVec.ofInt 16 (-32768))).toInt = 29228596 ∧
  (accumulate 8 2 0 (BitVec.ofInt 16 (-32768)) 32767).toInt = -30277424

/-- R70: `q = floor(acc / 256)`, with its range over every operand. -/
def Obligations.NormaliseIsFloor : Prop :=
  (∀ a : Acc, (normalise a).toInt = a.toInt / 256) ∧
  (∀ (n : Nibble) (t : BitVec 2) (m : Nibble) (h1 h2 : Sample),
    -118272 ≤ (normalise (accumulate n t m h1 h2)).toInt ∧ (normalise (accumulate n t m h1 h2)).toInt ≤ 114174) ∧
  (normalise (BitVec.ofInt 32 (-32))).toInt = -1 ∧ (normalise 32).toInt = 0

/-- R71: narrowing is reduction modulo 2^16 into -32768..32767, with the rule's three examples. -/
def Obligations.NarrowWraps : Prop :=
  (∀ q : Acc, (narrow q).toInt = Int.bmod q.toInt (2 ^ 16)) ∧
  (narrow 32782).toInt = -32754 ∧ (narrow 114174).toInt = -16898 ∧ (narrow (BitVec.ofInt 32 (-118272))).toInt = 12800

/-- R65, R73: SAMPLE answers in every state; the new h1 is the sample of the exact integer computation (R67-R71), the new h2 is
the old h1, and nothing else changes. That exec asks nothing of the phase is the model's choice (log entry 10). The rules' corner cases and worked
example are the last clauses. -/
def Obligations.SampleIsExactComputation : Prop :=
  (∀ (n : Nibble) (s : State), ∃ x : Sample,
    x.toInt = exactSample s.tidx.toNat s.shm8.toNat n.toInt s.h1.toInt s.h2.toInt ∧
    exec (.sample n) s = .next { s with h1 := x, h2 := s.h1 }) ∧
  exactSample 0 0 (-8) 0 0 = -32768 ∧ exactSample 0 15 (-1) 0 0 = -1 ∧ exactSample 1 0 1 30599 32639 = -32754 ∧
  exactSample 0 0 (-1) 0 0 = -4096

/-- R74: the datapath in the sufficient widths (24, 25, 26 and 18 signed bits) gives the sample of the 32-bit one. -/
def Obligations.NarrowDatapathAgrees : Prop :=
  ∀ (n : Nibble) (t : BitVec 2) (m : Nibble) (h1 h2 : Sample),
    narrowDatapath n t m h1 h2 = reconstruct n t m h1 h2

/-- R75: the sample depends only on (n, tidx, shm8, h1, h2). -/
def Obligations.SampleDependsOnItsOperands : Prop :=
  ∀ (n : Nibble) (s s' t t' : State), s.tidx = s'.tidx → s.shm8 = s'.shm8 → s.h1 = s'.h1 → s.h2 = s'.h2 →
    exec (.sample n) s = .next t → exec (.sample n) s' = .next t' → t.h1 = t'.h1 ∧ t.h2 = t'.h2

/-! ### The frame decoder (spec/41_frame_decoder.md) -/

/-- R14: the coefficient table, and that its entries are the exact integers of the rule. -/
def Obligations.CoefficientTable : Prop :=
  ∀ t : BitVec 2, (romC1 t).toInt = coefC1 t.toNat ∧ (romC2 t).toInt = coefC2 t.toNat

/-- R78: each valid-header row has its header byte `(t << 4) | m`, answers a next state in every state, writes tidx, shm8, k
and phase and nothing else, and stands for its coefficient pair and a shift in 8..23. The block runs these rows in ACCEPT only;
that exec asks nothing of the phase is the model's choice (log entry 10). -/
def Obligations.ValidHeaderLatches : Prop :=
  ∀ (t : BitVec 2) (m : Nibble) (s : State) (i : Instr),
    i = (if t = 0 then .hdrP0 m else if t = 1 then .hdrP1 m else if t = 2 then .hdrP2 m else .hdrP3 m) →
    encode i = .hdr (BitVec.ofNat 8 (16 * t.toNat + m.toNat)) ∧
    exec i s = .next { s with tidx := t, shm8 := m, k := 0, phase := .decode } ∧
    (romC1 t).toInt = coefC1 t.toNat ∧ (romC2 t).toInt = coefC2 t.toNat ∧
    (shiftOf m).toNat = m.toNat + 8 ∧ 8 ≤ (shiftOf m).toNat ∧ (shiftOf m).toNat ≤ 23

/-- R79: an illegal header byte is of the row of its table index, answers a next state in every state, and writes the error
record with the header byte: no sample, h1, h2 and frame_count unchanged. That exec asks nothing of the phase, where R106 raises in
ACCEPT only, is the model's choice (log entry 10), and so is that the latch and fbuf stay (log entry 14). -/
def Obligations.IllegalHeaderRaises : Prop :=
  ∀ (t m : Nibble) (s : State),
    (4 ≤ t.toNat → t.toNat ≤ 7 → decode (.hdr (t ++ m)) = .hdrBad47 t m) ∧
    (8 ≤ t.toNat → decode (.hdr (t ++ m)) = .hdrBad8F t m) ∧
    (t ++ m).toNat = 16 * t.toNat + m.toNat ∧
    exec (.hdrBad47 t m) s = .next { s with
      errKind := .invalidPredictorIndex, errFrame := s.frameCount, errInfo := t ++ m, pos := 0, k := 0, done := false,
      phase := .error } ∧
    exec (.hdrBad8F t m) s = .next { s with
      errKind := .invalidPredictorIndex, errFrame := s.frameCount, errInfo := t ++ m, pos := 0, k := 0, done := false,
      phase := .error }

/-- R76, R77: DATA in ACCEPT stores its byte at pos, clears done, and advances pos; byte 14 completes the frame, whose header
byte fbuf[0] then decides (R78, R79); every other byte of fbuf is as before. In ERROR it is discarded (R91). The model's
choices: exec answers the state unchanged in DECODE, where no token is taken (log entry 12), and error entry leaves the latch (log
entry 14). -/
def Obligations.DataCapturesByte : Prop :=
  ∀ (b : Byte) (s : State),
    (s.phase = .accept → s.pos.toNat < 14 →
      exec (.data b) s = .next { s with
        done := false, fbuf := s.fbuf.setIfInBounds s.pos.toNat b, pos := s.pos + 1 }) ∧
    (s.phase = .accept → s.pos = 14 → s.fbuf[0].toNat < 64 →
      exec (.data b) s = .next { s with
        done := false, fbuf := s.fbuf.setIfInBounds 14 b, pos := 0, tidx := BitVec.ofNat 2 (s.fbuf[0].toNat / 16),
        shm8 := BitVec.ofNat 4 s.fbuf[0].toNat, k := 0, phase := .decode }) ∧
    (s.phase = .accept → s.pos = 14 → 64 ≤ s.fbuf[0].toNat →
      exec (.data b) s = .next { s with
        done := false, fbuf := s.fbuf.setIfInBounds 14 b, pos := 0, k := 0, errKind := .invalidPredictorIndex,
        errFrame := s.frameCount, errInfo := s.fbuf[0], phase := .error }) ∧
    (s.phase = .error → exec (.data b) s = .next s) ∧
    (s.phase = .decode → exec (.data b) s = .next s)

/-- The model's stop on pos = 15 and on k of 28 or more (log entry 8): the spec says they are never held and lets a model fault
(R17, R18, spec/93_implementation_defined.md I12); such a k has no nibble.
That the sample step comes at the very edge on which the host takes a sample is the model's choice too (log entry 6). -/
def Obligations.IllegalCountersFault : Prop :=
  (∀ s : State, 28 ≤ s.k.toNat → nibbleAt s = none) ∧
  (∀ (b : Byte) (s : State), s.phase = .accept → s.pos = 15 → exec (.data b) s = .fault .illegalPos) ∧
  (∀ (hi lo : Nibble) (s : State), s.phase = .accept → s.pos = 15 → exec (.res hi lo) s = .fault .illegalPos) ∧
  (∀ (hi lo : Nibble) (s : State), s.phase = .decode → 28 ≤ s.k.toNat → exec (.res hi lo) s = .fault .illegalK) ∧
  (∀ (e : Edge) (rest : List Edge) (s : State), s.edges = e :: rest → e.rst = false → e.smpReady = true →
    hostStable e s = true → s.phase = .decode → 28 ≤ s.k.toNat → step s = .fault .illegalK)

/-- R81, with R35-R37: step k decodes the k-th residual of the frame, bytes 1..14 in order and high nibble first. -/
def Obligations.NibbleSelect : Prop :=
  ∀ s : State, (frameResiduals s.fbuf).length = 28 ∧
    (s.k.toNat < 28 → ∃ n : Nibble, nibbleAt s = some n ∧
      n = selectNibble s.k (s.fbuf.toList.getD (1 + s.k.toNat / 2) 0) ∧
      (frameResiduals s.fbuf)[s.k.toNat]? = some n.toInt)

/-- R80, R83: in DECODE the sample step happens only when the host takes the sample; it computes sample k from its nibble,
shifts the history, emits the sample (R95), and advances k, or after k = 27 retires the frame. The model's choices: the sample moves at
the first edge on which the host takes it (log entry 6), and retire leaves the latch and fbuf, don't-care there (log entry 14). -/
def Obligations.SampleStepEmits : Prop :=
  ∀ (e : Edge) (rest : List Edge) (s : State),
    s.edges = e :: rest → e.rst = false → hostStable e s = true → s.phase = .decode → s.k.toNat < 28 →
    (e.smpReady = false → step s = .next { s with edges := rest, draws := s.draws + 1, held := offer e }) ∧
    (e.smpReady = true → ∃ x : Sample,
      x.toInt = exactSample s.tidx.toNat s.shm8.toNat ((frameResiduals s.fbuf).getD s.k.toNat 0) s.h1.toInt s.h2.toInt ∧
      (s.k.toNat < 27 → step s = .next { s with
        edges := rest, draws := s.draws + 1, held := offer e, h1 := x, h2 := s.h1, stream := s.stream ++ [x],
        k := s.k + 1 }) ∧
      (s.k.toNat = 27 → step s = .next { s with
        edges := rest, draws := s.draws + 1, held := offer e, h1 := x, h2 := s.h1, stream := s.stream ++ [x],
        k := 0, phase := .accept, frameCount := (s.frameCount + 1) % 2 ^ s.frameCntW }))

/-- R82 in the model's reading (log entry 11): RES is stored as its DATA token is in ACCEPT, gives the sample of its half in
DECODE, and is discarded in ERROR. Retire and error entry leave the latch
and fbuf by the model's choice (log entry 14). -/
def Obligations.ResidualByteByPhase : Prop :=
  ∀ (hi lo : Nibble) (s : State),
    (s.phase = .accept → s.pos.toNat < 14 →
      exec (.res hi lo) s = .next { s with
        done := false, fbuf := s.fbuf.setIfInBounds s.pos.toNat (hi ++ lo), pos := s.pos + 1 }) ∧
    (s.phase = .accept → exec (.res hi lo) s = exec (.data (hi ++ lo)) s) ∧
    (s.phase = .decode → s.k.toNat < 28 → ∃ x : Sample,
      x.toInt = exactSample s.tidx.toNat s.shm8.toNat (if s.k.toNat % 2 = 0 then hi.toInt else lo.toInt) s.h1.toInt
        s.h2.toInt ∧
      exec (.res hi lo) s = .next { s with
        h1 := x, h2 := s.h1, stream := s.stream ++ [x], k := if s.k.toNat < 27 then s.k + 1 else 0,
        phase := if s.k.toNat < 27 then .decode else .accept,
        frameCount := if s.k.toNat < 27 then s.frameCount else (s.frameCount + 1) % 2 ^ s.frameCntW }) ∧
    (s.phase = .error → exec (.res hi lo) s = .next s)

/-- R82 in the model's reading (log entry 11): from an even k a residual byte gives exactly two samples, the high nibble's and then, with the history moved on, the
low nibble's. -/
def Obligations.ResidualByteGivesTwoSamples : Prop :=
  ∀ (hi lo : Nibble) (s : State), s.phase = .decode → s.k.toNat < 28 → s.k.toNat % 2 = 0 →
    ∃ (x y : Sample) (t : State),
      andThen (exec (.res hi lo) s) (exec (.res hi lo)) = .next t ∧
      x.toInt = exactSample s.tidx.toNat s.shm8.toNat hi.toInt s.h1.toInt s.h2.toInt ∧
      y.toInt = exactSample s.tidx.toNat s.shm8.toNat lo.toInt x.toInt s.h1.toInt ∧
      t.stream = s.stream ++ [x, y] ∧ t.h1 = y ∧ t.h2 = x

/-- R84: from the start of DECODE, a host that takes 28 samples gets exactly 28, the exact samples of the frame's 28 residuals
in order, and the frame retires. Every other element of the block is as before. The model's choices: 28
edges are enough, because the block does not stall (log entry 6), and retire leaves the latch and fbuf, don't-care there (log entry
14). -/
def Obligations.FrameGivesTwentyEightSamples : Prop :=
  ∀ (s : State) (rest : List Edge),
    s.phase = .decode → s.k = 0 → s.held = none → s.edges = List.replicate 28 takeEdge ++ rest →
    ∃ (t : State) (xs : List Sample),
      core.run 28 s = .next t ∧ xs.length = 28 ∧
      xs.map BitVec.toInt =
        exactSamples s.tidx.toNat s.shm8.toNat (frameResiduals s.fbuf) s.h1.toInt s.h2.toInt ∧
      t = { s with
        edges := rest, draws := s.draws + 28, stream := s.stream ++ xs, h1 := lastSample xs, h2 := secondLastSample xs, k := 0,
        phase := .accept, frameCount := (s.frameCount + 1) % 2 ^ s.frameCntW }

/-- R87: all-zero residuals from zero history give 28 zero samples and leave the history zero, for every predictor and shift. That 28 edges are enough is the model's choice: the block does not stall
(log entry 6). -/
def Obligations.ZeroResidualsGiveZeroSamples : Prop :=
  ∀ (s : State) (rest : List Edge),
    s.phase = .decode → s.k = 0 → s.held = none → s.h1 = 0 → s.h2 = 0 → (∀ b ∈ s.fbuf.toList.tail, b = 0) →
    s.edges = List.replicate 28 takeEdge ++ rest →
    ∃ t : State, core.run 28 s = .next t ∧ t.stream = s.stream ++ List.replicate 28 0 ∧ t.h1 = 0 ∧ t.h2 = 0

/-! ### Stream control (spec/42_stream_control.md) -/

/-- R88: CLEAR in ACCEPT and ERROR starts a new stream, whatever its data field (R52); the header latch and fbuf are left, the
samples transferred stay so. Twice has the effect of once. -/
def Obligations.ClearStartsNewStream : Prop :=
  ∀ (d d' : Byte) (s : State),
    (s.phase ≠ .decode → exec (.clear d) s = .next { s with
      h1 := 0, h2 := 0, pos := 0, k := 0, frameCount := 0, done := false, errKind := .none, errFrame := 0, errInfo := 0,
      phase := .accept, earlier := s.earlier ++ s.stream, stream := [] }) ∧
    (s.phase ≠ .decode → andThen (exec (.clear d) s) (exec (.clear d')) = exec (.clear d) s)

/-- R89, R102: END at a boundary sets done and changes nothing else; inside a frame it raises TRUNCATED_INPUT with the byte
count. It is discarded in ERROR (R91). The model's choices: exec answers the state unchanged in DECODE, where no token is taken (log
entry 12), and error entry leaves the latch and fbuf (log entry 14). -/
def Obligations.EndChecksBoundary : Prop :=
  ∀ (d : Byte) (s : State),
    (s.phase = .accept → s.pos = 0 → exec (.endTok d) s = .next { s with done := true }) ∧
    (s.phase = .accept → s.pos ≠ 0 → exec (.endTok d) s = .next { s with
      errKind := .truncatedInput, errFrame := s.frameCount, errInfo := BitVec.ofNat 8 s.pos.toNat, pos := 0, k := 0,
      done := false, phase := .error }) ∧
    (s.phase = .error → exec (.endTok d) s = .next s) ∧
    (s.phase = .decode → exec (.endTok d) s = .next s)

/-- R90, R104: a reserved token taken in ACCEPT raises RESERVED_TOKEN with its data field, at any pos; h1, h2 and frame_count
are unchanged. It is discarded in ERROR (R91). The model's choices: exec answers the state unchanged in DECODE, where no token is
taken (log entry 12), and error entry leaves the latch and fbuf (log entry 14). -/
def Obligations.ReservedTokenRaises : Prop :=
  ∀ (d : Byte) (s : State),
    (s.phase = .accept → exec (.rsvd d) s = .next { s with
      errKind := .reservedToken, errFrame := s.frameCount, errInfo := d, pos := 0, k := 0, done := false,
      phase := .error }) ∧
    (s.phase = .error → exec (.rsvd d) s = .next s) ∧
    (s.phase = .decode → exec (.rsvd d) s = .next s)

/-- R91: in ERROR an offered DATA, END or RSVD token is taken and discarded: only the host's list moves on, and the recorded
error is kept. CLEAR is handled by R88. That the token moves at that very edge is the model's choice (log entry 6). -/
def Obligations.TokensDiscardedInError : Prop :=
  ∀ (e : Edge) (rest : List Edge) (s : State),
    s.edges = e :: rest → e.rst = false → hostStable e s = true → s.phase = .error → e.tokValid = true →
    tokReadyAllowed false s = true ∧
    (e.tokCmd ≠ 1 → step s = .next { s with edges := rest, draws := s.draws + 1, held := none }) ∧
    (e.tokCmd = 1 → step s = .next { s with
      edges := rest, draws := s.draws + 1, held := none, h1 := 0, h2 := 0, pos := 0, k := 0, frameCount := 0, done := false,
      errKind := .none, errFrame := 0, errInfo := 0, phase := .accept, earlier := s.earlier ++ s.stream, stream := [] })

/-- R92, R44: in DECODE no token is taken: what is offered changes nothing of a step but what the host must hold. The first
clause is the model's choice (log entry 12): exec of a token, which no step calls in DECODE, answers the state unchanged. -/
def Obligations.NoTokenTakenInDecode : Prop :=
  (∀ (w : TokenWord) (s : State), s.phase = .decode → exec (decode (.tok w)) s = .next s) ∧
  ∀ (e e' : Edge) (rest : List Edge) (s s' t : State),
    s.phase = .decode → e.rst = false → e'.rst = false → e.smpReady = e'.smpReady →
    hostStable e s = true → hostStable e' s = true → s.edges = e :: rest → s' = { s with edges := e' :: rest } →
    step s = .next t →
    tokReadyAllowed false s = false ∧ t.held = offer e ∧ step s' = .next { t with held := offer e' }

/-- R100: while the host takes no sample in DECODE, the block changes no state and takes no token, and only reset ends such
a wait. -/
def Obligations.BackPressureHoldsState : Prop :=
  ∀ (e : Edge) (rest : List Edge) (s t : State),
    s.edges = e :: rest → s.phase = .decode → e.smpReady = false →
    (e.rst = false → hostStable e s = true →
      step s = .next { s with edges := rest, draws := s.draws + 1, held := offer e }) ∧
    (step s = .next t → t.phase ≠ .decode → e.rst = true)

/-- R30, R115: an edge without a transfer changes nothing of the block; neither does the end of the host's list. -/
def Obligations.NoTransferChangesNothing : Prop :=
  ∀ (e : Edge) (rest : List Edge) (s : State),
    (s.edges = [] → step s = .next s) ∧
    (s.edges = e :: rest → e.rst = false → hostStable e s = true → s.phase ≠ .decode → e.tokValid = false →
      step s = .next { s with edges := rest, draws := s.draws + 1, held := none })

/-- R125, spec/93_implementation_defined.md I8, in the model's form of a refusal (log entry 7): a host that changes or withdraws an untransferred token gives the run no
meaning, unless the edge is a reset. -/
def Obligations.UnstableHostRefused : Prop :=
  ∀ (e : Edge) (rest : List Edge) (w : TokenWord) (s : State),
    s.edges = e :: rest → s.held = some w → offer e ≠ some w →
    (e.rst = false → step s = .refused .hostUnstable) ∧ (e.rst = true → ∃ t, step s = .next t)

/-- R94: CLEAR then END transfers no sample, so that there are no output bytes, and ends with done = 1 and err_kind = 0. -/
def Obligations.EmptyStream : Prop :=
  ∀ (d d' : Byte) (s : State), s.phase ≠ .decode →
    ∃ t : State, andThen (exec (.clear d) s) (exec (.endTok d')) = .next t ∧ sent t = sent s ∧ t.done = true ∧
      errCode t.errKind = 0 ∧ t.stream = [] ∧ streamBytes t = []

/-- R96, the step it rests on: END at a boundary followed by DATA has the effect of DATA alone. -/
def Obligations.EndThenDataIsData : Prop :=
  ∀ (d b : Byte) (s : State), s.phase = .accept → s.pos = 0 →
    andThen (exec (.endTok d) s) (exec (.data b)) = exec (.data b) s

/-- R93: for every list of frames with legal headers, CLEAR, their bytes and END transfer exactly 28 samples a frame, each the
exact sample of its residual with the history carried across frames, and end with done = 1, err_kind = 0 and
frame_count = F mod 2^FRAME_CNT_W. The host's schedule of edges, and that its length is enough because the block does not stall,
are the model's choices (log entries 5, 6). -/
def Obligations.StreamOfValidFrames : Prop :=
  ∀ (fs : List (Byte × Vector Byte 14)) (s : State),
    s.phase ≠ .decode → s.held = none → (∀ f ∈ fs, f.1.toNat < 64) →
    ∀ ws : List TokenWord,
      ws = tokWord 1 0 :: dataWords (fs.flatMap fun f => f.1 :: f.2.toList) ++ [tokWord 2 0] →
      s.edges = playTokens ws →
      ∃ t : State, core.run (playTokens ws).length s = .next t ∧
        t.stream.length = 28 * fs.length ∧ t.stream.map BitVec.toInt = exactStream fs 0 0 ∧
        t.earlier = s.earlier ++ s.stream ∧ t.phase = .accept ∧ t.done = true ∧ t.errKind = .none ∧
        t.frameCount = fs.length % 2 ^ s.frameCntW

/-- R128: every edge's step follows the phase transition table, with the pos, k, done and error kind of its "to" column; no
other transition exists. An edge without a transfer changes nothing (R30, R115). That an offered token outside DECODE, and a sample
the host takes in DECODE, move at that very edge is the model's choice (log entry 6). -/
def Obligations.PhaseTransitionTable : Prop :=
  ∀ (e : Edge) (rest : List Edge) (s t : State), s.edges = e :: rest → step s = .next t →
    t.phase = phaseAfter s.phase (eventOf e s) ∧
    (eventOf e s = .dataEarly → t.pos = s.pos + 1) ∧
    (eventOf e s = .dataLastValid → t.k = 0 ∧ t.pos = 0) ∧
    (eventOf e s = .dataLastInvalid → t.errKind = .invalidPredictorIndex) ∧
    (eventOf e s = .endBoundary → t.done = true) ∧
    (eventOf e s = .endInside → t.errKind = .truncatedInput) ∧
    (eventOf e s = .rsvd → t.errKind = .reservedToken) ∧
    (eventOf e s = .sampleEarly → t.k = s.k + 1) ∧
    (eventOf e s = .sampleLast → t.k = 0) ∧
    (eventOf e s = .errorDiscard → t = { s with edges := rest, draws := s.draws + 1, held := none }) ∧
    (eventOf e s = .noTransfer → t = { s with edges := rest, draws := s.draws + 1, held := offer e })

/-! ### Errors (spec/60_exceptions.md) -/

/-- R101, R106: a step that enters ERROR takes a token in ACCEPT, and its record is the token's: END inside a frame, a
completed frame with table_index 4..15, or a reserved command. The codes are 1, 2 and 3. -/
def Obligations.ErrorEntryRecords : Prop :=
  ∀ (e : Edge) (rest : List Edge) (s t : State),
    s.edges = e :: rest → s.phase ≠ .error → step s = .next t → t.phase = .error →
    s.phase = .accept ∧ e.rst = false ∧ e.tokValid = true ∧
    t.errFrame = s.frameCount ∧ t.pos = 0 ∧ t.k = 0 ∧ t.done = false ∧ t.h1 = s.h1 ∧ t.h2 = s.h2 ∧
    t.frameCount = s.frameCount ∧ sent t = sent s ∧
    ((e.tokCmd = 2 ∧ s.pos ≠ 0 ∧ errCode t.errKind = 1 ∧ t.errInfo.toNat = s.pos.toNat) ∨
     (e.tokCmd = 0 ∧ s.pos = 14 ∧ 64 ≤ s.fbuf[0].toNat ∧ errCode t.errKind = 2 ∧ t.errInfo = s.fbuf[0]) ∨
     (e.tokCmd = 3 ∧ errCode t.errKind = 3 ∧ t.errInfo = e.tokData))

/-- R109, R91: the only ways out of ERROR are a CLEAR token and a reset; until then the first error's record stands.
Either way a new stream starts from zero history. -/
def Obligations.OnlyClearOrResetLeavesError : Prop :=
  ∀ (s t : State), s.phase = .error → step s = .next t →
    (t.phase = .error ∧ t.errKind = s.errKind ∧ t.errFrame = s.errFrame ∧ t.errInfo = s.errInfo ∧ sent t = sent s) ∨
    (t.phase = .accept ∧ t.errKind = .none ∧ t.h1 = 0 ∧ t.h2 = 0 ∧ t.stream = [] ∧
      ∃ (e : Edge) (rest : List Edge), s.edges = e :: rest ∧ (e.rst = true ∨ (e.tokValid = true ∧ e.tokCmd = 1)))

/-- R107: in every reached error state the history holds the last two samples of the stream (zero where there is none), the
error names the frame, and no sample of that frame has been transferred: the samples are 28 per frame before it, as far as
FRAME_CNT_W bits tell. -/
def Obligations.ErrorsArePrecise : Prop :=
  ∀ s : State, Reachable s → s.phase = .error →
    s.errKind ≠ .none ∧ s.errFrame = s.frameCount ∧ s.h1 = lastSample s.stream ∧ s.h2 = secondLastSample s.stream ∧
    s.stream.length % (28 * 2 ^ s.frameCntW) = 28 * s.frameCount

/-! ### Who writes what -/

/-- R97, R95: what has been transferred stays transferred; a step adds at most one sample, and only a sample transfer in
DECODE adds one, the sample `smp_data` offered (R28). -/
def Obligations.TransferredSamplesStand : Prop :=
  ∀ (s t : State), step s = .next t →
    sent t = sent s ∨
    (∃ (e : Edge) (rest : List Edge) (x : Sample), s.edges = e :: rest ∧ e.rst = false ∧ e.smpReady = true ∧
      smpValidAllowed false s = true ∧ sampleAt s = some x ∧ smpData false s = x ∧ sent t = sent s ++ [x])

/-- R72, R86, R11, R12: a step that changes the history is a sample transfer, which shifts the sample in, or CLEAR or reset,
which zero it. -/
def Obligations.HistoryWriters : Prop :=
  ∀ (s t : State), step s = .next t → (t.h1 ≠ s.h1 ∨ t.h2 ≠ s.h2) →
    (s.phase = .decode ∧ t.h2 = s.h1 ∧ sampleAt s = some t.h1 ∧ t.stream = s.stream ++ [t.h1]) ∨
    (t.h1 = 0 ∧ t.h2 = 0 ∧ t.stream = [] ∧ ∃ (e : Edge) (rest : List Edge), s.edges = e :: rest ∧
      (e.rst = true ∨ (s.phase ≠ .decode ∧ e.tokValid = true ∧ e.tokCmd = 1)))

/-- R21, R112: frame_count is written by retire, which adds one modulo 2^FRAME_CNT_W, and by CLEAR and reset, which zero it;
nothing writes FRAME_CNT_W. -/
def Obligations.FrameCountWriters : Prop :=
  ∀ (s t : State), step s = .next t →
    t.frameCntW = s.frameCntW ∧
    (t.frameCount = s.frameCount ∨
     (s.phase = .decode ∧ s.k.toNat = 27 ∧ t.phase = .accept ∧
       t.frameCount = (s.frameCount + 1) % 2 ^ s.frameCntW) ∨
     (t.frameCount = 0 ∧ ∃ (e : Edge) (rest : List Edge), s.edges = e :: rest ∧
       (e.rst = true ∨ (s.phase ≠ .decode ∧ e.tokValid = true ∧ e.tokCmd = 1))))

/-- R22: done rises only by END at a boundary, and falls only by a DATA token taken in ACCEPT, CLEAR, reset or error entry. -/
def Obligations.DoneWriters : Prop :=
  ∀ (s t : State), step s = .next t → t.done ≠ s.done →
    ∃ (e : Edge) (rest : List Edge), s.edges = e :: rest ∧
      ((t.done = true ∧ e.rst = false ∧ s.phase = .accept ∧ s.pos = 0 ∧ e.tokValid = true ∧ e.tokCmd = 2) ∨
       (t.done = false ∧ (e.rst = true ∨
         (s.phase = .accept ∧ e.tokValid = true ∧ (e.tokCmd = 0 ∨ t.phase = .error)) ∨
         (s.phase ≠ .decode ∧ e.tokValid = true ∧ e.tokCmd = 1))))

/-- R85, R122, R123: in DECODE the header latch and fbuf hold at every step but a reset. That the retiring step (k = 27) leaves
them too, where R83, R15 and R16 call them don't-care, is the model's choice (log entry 14). -/
def Obligations.LatchAndBufferHoldInDecode : Prop :=
  ∀ (e : Edge) (rest : List Edge) (s t : State), s.edges = e :: rest → e.rst = false → s.phase = .decode →
    step s = .next t → t.tidx = s.tidx ∧ t.shm8 = s.shm8 ∧ t.fbuf = s.fbuf

/-! ### Status, output bytes, assembly -/

/-- R29, R101: what the status outputs show wherever they are defined. -/
def Obligations.StatusOutputsShowState : Prop :=
  ∀ s : State,
    ((statusLevels s).busy = true ↔ s.phase = .decode) ∧ (statusLevels s).done = s.done ∧
    ((statusLevels s).errKind = 0 ↔ s.errKind = .none) ∧ ((statusLevels s).errKind = 1 ↔ s.errKind = .truncatedInput) ∧
    ((statusLevels s).errKind = 2 ↔ s.errKind = .invalidPredictorIndex) ∧
    ((statusLevels s).errKind = 3 ↔ s.errKind = .reservedToken) ∧
    (s.errKind ≠ .none → (statusLevels s).errFrame = s.errFrame ∧ (statusLevels s).errInfo = s.errInfo) ∧
    (s.errKind = .none → (statusLevels s).errFrame = 0 ∧ (statusLevels s).errInfo = 0) ∧
    (statusLevels s).frameCount = s.frameCount ∧
    (s.phase ≠ .decode → (statusLevels s).framePos = s.pos ∧ (statusLevels s).hist1 = s.h1 ∧ (statusLevels s).hist2 = s.h2)

/-- R38: a sample's byte image is its low byte, then its high byte, of the two's-complement pattern. -/
def Obligations.SampleBytesLittleEndian : Prop :=
  ∀ x : Sample, ∃ lo hi : Byte, sampleBytes x = [lo, hi] ∧ x.toNat = lo.toNat + 256 * hi.toNat ∧
    x.toInt = lo.toNat + 256 * hi.toInt

/-- R38: the output byte stream is the samples' byte images, concatenated with no framing or header: two bytes a sample, sample j
giving byte 2j, its low 8 bits, and byte 2j + 1, its high 8 bits. -/
def Obligations.OutputByteStream : Prop :=
  ∀ xs : List Sample,
    (outputBytes xs).length = 2 * xs.length ∧
    (∀ x : Sample, outputBytes (xs ++ [x]) = outputBytes xs ++ sampleBytes x) ∧
    (∀ (j : Nat) (x : Sample), xs[j]? = some x → ∃ lo hi : Byte,
      (outputBytes xs)[2 * j]? = some lo ∧ (outputBytes xs)[2 * j + 1]? = some hi ∧
      lo.toNat = x.toNat % 256 ∧ hi.toNat = x.toNat / 256)

/-- R63, R64: the words of each assembly line, and the one assembly error. -/
def Obligations.AssemblyExpands : Prop :=
  (∀ b : Byte, expandLine (.data b) = .ok [b.setWidth 10]) ∧ expandLine .clear = .ok [0x100] ∧
  expandLine .endTok = .ok [0x200] ∧ (∀ b : Byte, expandLine (.rsvd b) = .ok [0x300 ||| b.setWidth 10]) ∧
  (∀ bs : List Byte, bs.length = 15 → expandLine (.frame bs) = .ok (bs.map fun b => b.setWidth 10)) ∧
  (∀ bs : List Byte, bs.length ≠ 15 → expandLine (.frame bs) = .error .frameLength) ∧
  (∀ b0 bb : Byte, expandLine (.frameRep b0 bb) = expandLine (.frame (b0 :: List.replicate 14 bb))) ∧
  (∀ bs : List Byte, expandLine (.bytes bs) = .ok (bs.map fun b => b.setWidth 10)) ∧
  (∀ bs : List Byte, expandLine (.stream bs) = .ok (0x100 :: (bs.map fun b => b.setWidth 10) ++ [0x200]))

/-! ### Reset and the whole machine (spec/70_reset_and_hazards.md, spec/10_state.md) -/

/-- R117: the reset values, the two port outputs while rst = 1, and the status outputs after reset. Of fbuf nothing is said:
it is unspecified (log entry 2). -/
def Obligations.ResetValues : Prop :=
  State.reset.h1 = 0 ∧ State.reset.h2 = 0 ∧ State.reset.tidx = 0 ∧ State.reset.shm8 = 0 ∧ State.reset.pos = 0 ∧
  State.reset.k = 0 ∧ State.reset.phase = .accept ∧ State.reset.frameCount = 0 ∧ State.reset.done = false ∧
  State.reset.errKind = .none ∧ State.reset.errFrame = 0 ∧ State.reset.errInfo = 0 ∧
  (∀ s : State, tokReadyAllowed true s = false ∧ smpValidAllowed true s = false) ∧
  statusLevels State.reset = ⟨false, false, 0, 0, 0, 0, 0, 0, 0⟩

/-- R116, R118: an edge with rst = 1 is the reset step from every state, whatever the handshake signals hold: every element at
its reset value, fbuf at any value, no transfer, and the offered token not taken. -/
def Obligations.ResetStepFromAnyState : Prop :=
  ∀ (e : Edge) (rest : List Edge) (s : State), s.edges = e :: rest → e.rst = true →
    tokReadyAllowed true s = false ∧ smpValidAllowed true s = false ∧
    ∃ fb : Vector Byte 15, step s = .next { State.reset with
      fbuf := fb, frameCntW := s.frameCntW, edges := rest, draws := s.draws + 1, earlier := s.earlier ++ s.stream }

/-- R120: a CLEAR token right after reset changes nothing. -/
def Obligations.ClearAfterReset : Prop :=
  ∀ d : Byte, exec (.clear d) State.reset = .next State.reset

/-- A step runs the decoded instruction (log entries 5, 10): an offered token's operation on the state with the edge past; in
DECODE the SAMPLE of the current nibble, then emit and advance; and the 15th DATA byte the header row of fbuf[0] (R41, R77, R80).
That an offered token outside DECODE, and a sample the host takes in DECODE, move at that very edge is the model's choice (log
entry 6). -/
def Obligations.StepRunsDecodedInstruction : Prop :=
  (∀ (e : Edge) (rest : List Edge) (s : State), s.edges = e :: rest → e.rst = false → hostStable e s = true →
    s.phase ≠ .decode → e.tokValid = true →
    step s = exec (decode (.tok (tokWord e.tokCmd e.tokData)))
      { s with edges := rest, draws := s.draws + 1, held := none }) ∧
  (∀ (e : Edge) (rest : List Edge) (n : Nibble) (s : State), s.edges = e :: rest → e.rst = false → hostStable e s = true →
    s.phase = .decode → e.smpReady = true → nibbleAt s = some n →
    step s = andThen (exec (decode (.nib n)) { s with edges := rest, draws := s.draws + 1, held := offer e })
      fun t => .next (finishSample t)) ∧
  (∀ (b : Byte) (s : State), s.phase = .accept → s.pos = 14 →
    exec (.data b) s = exec (decode (.hdr s.fbuf[0]))
      { s with done := false, fbuf := s.fbuf.setIfInBounds 14 b, pos := 0 })

/-- R31 holds at reset, for every width and every future of the host (with the stream's record). -/
def Obligations.InvariantsHoldAtReset : Prop :=
  ∀ (w : Nat) (es : List Edge), StateInvariant { State.reset with frameCntW := w, edges := es } ∧
    StreamInvariant { State.reset with frameCntW := w, edges := es }

/-- Every step from every state that meets the invariant of R31 keeps it. -/
def Obligations.StepKeepsStateInvariant : Prop :=
  ∀ s t : State, StateInvariant s → step s = .next t → StateInvariant t

/-- Every step keeps the record of the stream: the history is the last two samples, the samples are 28 a frame and k, an error
names its frame (R72, R84, R86, R93, R107). -/
def Obligations.StepKeepsStreamInvariant : Prop :=
  ∀ s t : State, StateInvariant s → StreamInvariant s → step s = .next t → StreamInvariant t

/-- From a state that meets the invariant no step faults: the only stop is a host that breaks its duty (R125), and without one
the step answers a next state. -/
def Obligations.NoFaultFromInvariant : Prop :=
  ∀ s : State, StateInvariant s →
    (∀ r : Fault, step s ≠ .fault r) ∧
    ((∀ (e : Edge) (rest : List Edge), s.edges = e :: rest → e.rst = true ∨ hostStable e s = true) → ∃ t, step s = .next t)

/-- R31: its six items hold in every state reachable from reset. -/
def Obligations.ReachableStatesMeetInvariants : Prop :=
  ∀ s : State, Reachable s →
    (s.phase = .error ↔ errCode s.errKind ≠ 0) ∧
    (s.phase = .decode ∨ s.phase = .error → s.pos = 0) ∧
    (s.phase ≠ .decode → s.k = 0) ∧
    (s.done = true → s.phase = .accept ∧ s.pos = 0) ∧
    (s.pos.toNat ≤ 14 ∧ s.k.toNat ≤ 27) ∧
    (errCode s.errKind = 0 → s.errFrame = 0 ∧ s.errInfo = 0)

/-- R98, R22: a run that has succeeded stands at a frame boundary with whole frames transferred, 28 samples each, as far as
FRAME_CNT_W bits tell; a run never both succeeds and fails. -/
def Obligations.SucceededRunIsWholeFrames : Prop :=
  ∀ s : State, Reachable s → runSucceeded s →
    s.phase = .accept ∧ s.pos = 0 ∧ ¬ runFailed s ∧
    s.stream.length % (28 * 2 ^ s.frameCntW) = 28 * s.frameCount

/-- R98, with R42 and R115: the result of a run that has ended is final. While the host does not reset the block, every step
answers a next state, at which the run has still ended and its samples and status outputs are the same. -/
def Obligations.EndedRunStands : Prop :=
  ∀ s : State, runEnded s → (∀ e ∈ s.edges, e.rst = false) →
    ∃ t : State, step s = .next t ∧ runEnded t ∧ (∀ e ∈ t.edges, e.rst = false) ∧ runResult t = runResult s
end

