-- ==== Sys2Proof/Laws/State.lean ====
section
/-! SUPPORT. What each operation of Machine/Ops.lean does to each field of the state, one lemma a field, so that no proof
unfolds a record update. -/

namespace Sys2Proof.Machine

@[simp] theorem writeByte_h1 (i : Fin 15) (b : Byte) (s : State) : (writeByte i b s).h1 = s.h1 := rfl
@[simp] theorem writeByte_h2 (i : Fin 15) (b : Byte) (s : State) : (writeByte i b s).h2 = s.h2 := rfl
@[simp] theorem writeByte_tidx (i : Fin 15) (b : Byte) (s : State) : (writeByte i b s).tidx = s.tidx := rfl
@[simp] theorem writeByte_shm8 (i : Fin 15) (b : Byte) (s : State) : (writeByte i b s).shm8 = s.shm8 := rfl
@[simp] theorem writeByte_fbuf (i : Fin 15) (b : Byte) (s : State) : (writeByte i b s).fbuf = s.fbuf.set i b := rfl
@[simp] theorem writeByte_pos (i : Fin 15) (b : Byte) (s : State) : (writeByte i b s).pos = s.pos := rfl
@[simp] theorem writeByte_k (i : Fin 15) (b : Byte) (s : State) : (writeByte i b s).k = s.k := rfl
@[simp] theorem writeByte_phase (i : Fin 15) (b : Byte) (s : State) : (writeByte i b s).phase = s.phase := rfl
@[simp] theorem writeByte_frameCount (i : Fin 15) (b : Byte) (s : State) : (writeByte i b s).frameCount = s.frameCount := rfl
@[simp] theorem writeByte_done (i : Fin 15) (b : Byte) (s : State) : (writeByte i b s).done = false := rfl
@[simp] theorem writeByte_errKind (i : Fin 15) (b : Byte) (s : State) : (writeByte i b s).errKind = s.errKind := rfl
@[simp] theorem writeByte_errFrame (i : Fin 15) (b : Byte) (s : State) : (writeByte i b s).errFrame = s.errFrame := rfl
@[simp] theorem writeByte_errInfo (i : Fin 15) (b : Byte) (s : State) : (writeByte i b s).errInfo = s.errInfo := rfl
@[simp] theorem writeByte_frameCntW (i : Fin 15) (b : Byte) (s : State) : (writeByte i b s).frameCntW = s.frameCntW := rfl
@[simp] theorem writeByte_edges (i : Fin 15) (b : Byte) (s : State) : (writeByte i b s).edges = s.edges := rfl
@[simp] theorem writeByte_held (i : Fin 15) (b : Byte) (s : State) : (writeByte i b s).held = s.held := rfl
@[simp] theorem writeByte_draws (i : Fin 15) (b : Byte) (s : State) : (writeByte i b s).draws = s.draws := rfl
@[simp] theorem writeByte_earlier (i : Fin 15) (b : Byte) (s : State) : (writeByte i b s).earlier = s.earlier := rfl
@[simp] theorem writeByte_stream (i : Fin 15) (b : Byte) (s : State) : (writeByte i b s).stream = s.stream := rfl

@[simp] theorem setPos_h1 (p : BitVec 4) (s : State) : (setPos p s).h1 = s.h1 := rfl
@[simp] theorem setPos_h2 (p : BitVec 4) (s : State) : (setPos p s).h2 = s.h2 := rfl
@[simp] theorem setPos_tidx (p : BitVec 4) (s : State) : (setPos p s).tidx = s.tidx := rfl
@[simp] theorem setPos_shm8 (p : BitVec 4) (s : State) : (setPos p s).shm8 = s.shm8 := rfl
@[simp] theorem setPos_fbuf (p : BitVec 4) (s : State) : (setPos p s).fbuf = s.fbuf := rfl
@[simp] theorem setPos_pos (p : BitVec 4) (s : State) : (setPos p s).pos = p := rfl
@[simp] theorem setPos_k (p : BitVec 4) (s : State) : (setPos p s).k = s.k := rfl
@[simp] theorem setPos_phase (p : BitVec 4) (s : State) : (setPos p s).phase = s.phase := rfl
@[simp] theorem setPos_frameCount (p : BitVec 4) (s : State) : (setPos p s).frameCount = s.frameCount := rfl
@[simp] theorem setPos_done (p : BitVec 4) (s : State) : (setPos p s).done = s.done := rfl
@[simp] theorem setPos_errKind (p : BitVec 4) (s : State) : (setPos p s).errKind = s.errKind := rfl
@[simp] theorem setPos_errFrame (p : BitVec 4) (s : State) : (setPos p s).errFrame = s.errFrame := rfl
@[simp] theorem setPos_errInfo (p : BitVec 4) (s : State) : (setPos p s).errInfo = s.errInfo := rfl
@[simp] theorem setPos_frameCntW (p : BitVec 4) (s : State) : (setPos p s).frameCntW = s.frameCntW := rfl
@[simp] theorem setPos_edges (p : BitVec 4) (s : State) : (setPos p s).edges = s.edges := rfl
@[simp] theorem setPos_held (p : BitVec 4) (s : State) : (setPos p s).held = s.held := rfl
@[simp] theorem setPos_draws (p : BitVec 4) (s : State) : (setPos p s).draws = s.draws := rfl
@[simp] theorem setPos_earlier (p : BitVec 4) (s : State) : (setPos p s).earlier = s.earlier := rfl
@[simp] theorem setPos_stream (p : BitVec 4) (s : State) : (setPos p s).stream = s.stream := rfl

@[simp] theorem headerValid_h1 (t : BitVec 2) (m : Nibble) (s : State) : (headerValid t m s).h1 = s.h1 := rfl
@[simp] theorem headerValid_h2 (t : BitVec 2) (m : Nibble) (s : State) : (headerValid t m s).h2 = s.h2 := rfl
@[simp] theorem headerValid_tidx (t : BitVec 2) (m : Nibble) (s : State) : (headerValid t m s).tidx = t := rfl
@[simp] theorem headerValid_shm8 (t : BitVec 2) (m : Nibble) (s : State) : (headerValid t m s).shm8 = m := rfl
@[simp] theorem headerValid_fbuf (t : BitVec 2) (m : Nibble) (s : State) : (headerValid t m s).fbuf = s.fbuf := rfl
@[simp] theorem headerValid_pos (t : BitVec 2) (m : Nibble) (s : State) : (headerValid t m s).pos = s.pos := rfl
@[simp] theorem headerValid_k (t : BitVec 2) (m : Nibble) (s : State) : (headerValid t m s).k = 0 := rfl
@[simp] theorem headerValid_phase (t : BitVec 2) (m : Nibble) (s : State) : (headerValid t m s).phase = .decode := rfl
@[simp] theorem headerValid_frameCount (t : BitVec 2) (m : Nibble) (s : State) : (headerValid t m s).frameCount = s.frameCount := rfl
@[simp] theorem headerValid_done (t : BitVec 2) (m : Nibble) (s : State) : (headerValid t m s).done = s.done := rfl
@[simp] theorem headerValid_errKind (t : BitVec 2) (m : Nibble) (s : State) : (headerValid t m s).errKind = s.errKind := rfl
@[simp] theorem headerValid_errFrame (t : BitVec 2) (m : Nibble) (s : State) : (headerValid t m s).errFrame = s.errFrame := rfl
@[simp] theorem headerValid_errInfo (t : BitVec 2) (m : Nibble) (s : State) : (headerValid t m s).errInfo = s.errInfo := rfl
@[simp] theorem headerValid_frameCntW (t : BitVec 2) (m : Nibble) (s : State) : (headerValid t m s).frameCntW = s.frameCntW := rfl
@[simp] theorem headerValid_edges (t : BitVec 2) (m : Nibble) (s : State) : (headerValid t m s).edges = s.edges := rfl
@[simp] theorem headerValid_held (t : BitVec 2) (m : Nibble) (s : State) : (headerValid t m s).held = s.held := rfl
@[simp] theorem headerValid_draws (t : BitVec 2) (m : Nibble) (s : State) : (headerValid t m s).draws = s.draws := rfl
@[simp] theorem headerValid_earlier (t : BitVec 2) (m : Nibble) (s : State) : (headerValid t m s).earlier = s.earlier := rfl
@[simp] theorem headerValid_stream (t : BitVec 2) (m : Nibble) (s : State) : (headerValid t m s).stream = s.stream := rfl

@[simp] theorem errorEntry_h1 (e : ErrKind) (info : Byte) (s : State) : (errorEntry e info s).h1 = s.h1 := rfl
@[simp] theorem errorEntry_h2 (e : ErrKind) (info : Byte) (s : State) : (errorEntry e info s).h2 = s.h2 := rfl
@[simp] theorem errorEntry_tidx (e : ErrKind) (info : Byte) (s : State) : (errorEntry e info s).tidx = s.tidx := rfl
@[simp] theorem errorEntry_shm8 (e : ErrKind) (info : Byte) (s : State) : (errorEntry e info s).shm8 = s.shm8 := rfl
@[simp] theorem errorEntry_fbuf (e : ErrKind) (info : Byte) (s : State) : (errorEntry e info s).fbuf = s.fbuf := rfl
@[simp] theorem errorEntry_pos (e : ErrKind) (info : Byte) (s : State) : (errorEntry e info s).pos = 0 := rfl
@[simp] theorem errorEntry_k (e : ErrKind) (info : Byte) (s : State) : (errorEntry e info s).k = 0 := rfl
@[simp] theorem errorEntry_phase (e : ErrKind) (info : Byte) (s : State) : (errorEntry e info s).phase = .error := rfl
@[simp] theorem errorEntry_frameCount (e : ErrKind) (info : Byte) (s : State) : (errorEntry e info s).frameCount = s.frameCount := rfl
@[simp] theorem errorEntry_done (e : ErrKind) (info : Byte) (s : State) : (errorEntry e info s).done = false := rfl
@[simp] theorem errorEntry_errKind (e : ErrKind) (info : Byte) (s : State) : (errorEntry e info s).errKind = e := rfl
@[simp] theorem errorEntry_errFrame (e : ErrKind) (info : Byte) (s : State) : (errorEntry e info s).errFrame = s.frameCount := rfl
@[simp] theorem errorEntry_errInfo (e : ErrKind) (info : Byte) (s : State) : (errorEntry e info s).errInfo = info := rfl
@[simp] theorem errorEntry_frameCntW (e : ErrKind) (info : Byte) (s : State) : (errorEntry e info s).frameCntW = s.frameCntW := rfl
@[simp] theorem errorEntry_edges (e : ErrKind) (info : Byte) (s : State) : (errorEntry e info s).edges = s.edges := rfl
@[simp] theorem errorEntry_held (e : ErrKind) (info : Byte) (s : State) : (errorEntry e info s).held = s.held := rfl
@[simp] theorem errorEntry_draws (e : ErrKind) (info : Byte) (s : State) : (errorEntry e info s).draws = s.draws := rfl
@[simp] theorem errorEntry_earlier (e : ErrKind) (info : Byte) (s : State) : (errorEntry e info s).earlier = s.earlier := rfl
@[simp] theorem errorEntry_stream (e : ErrKind) (info : Byte) (s : State) : (errorEntry e info s).stream = s.stream := rfl

@[simp] theorem clearStream_h1 (s : State) : (clearStream s).h1 = 0 := rfl
@[simp] theorem clearStream_h2 (s : State) : (clearStream s).h2 = 0 := rfl
@[simp] theorem clearStream_tidx (s : State) : (clearStream s).tidx = s.tidx := rfl
@[simp] theorem clearStream_shm8 (s : State) : (clearStream s).shm8 = s.shm8 := rfl
@[simp] theorem clearStream_fbuf (s : State) : (clearStream s).fbuf = s.fbuf := rfl
@[simp] theorem clearStream_pos (s : State) : (clearStream s).pos = 0 := rfl
@[simp] theorem clearStream_k (s : State) : (clearStream s).k = 0 := rfl
@[simp] theorem clearStream_phase (s : State) : (clearStream s).phase = .accept := rfl
@[simp] theorem clearStream_frameCount (s : State) : (clearStream s).frameCount = 0 := rfl
@[simp] theorem clearStream_done (s : State) : (clearStream s).done = false := rfl
@[simp] theorem clearStream_errKind (s : State) : (clearStream s).errKind = .none := rfl
@[simp] theorem clearStream_errFrame (s : State) : (clearStream s).errFrame = 0 := rfl
@[simp] theorem clearStream_errInfo (s : State) : (clearStream s).errInfo = 0 := rfl
@[simp] theorem clearStream_frameCntW (s : State) : (clearStream s).frameCntW = s.frameCntW := rfl
@[simp] theorem clearStream_edges (s : State) : (clearStream s).edges = s.edges := rfl
@[simp] theorem clearStream_held (s : State) : (clearStream s).held = s.held := rfl
@[simp] theorem clearStream_draws (s : State) : (clearStream s).draws = s.draws := rfl
@[simp] theorem clearStream_earlier (s : State) : (clearStream s).earlier = s.earlier ++ s.stream := rfl
@[simp] theorem clearStream_stream (s : State) : (clearStream s).stream = [] := rfl

@[simp] theorem markDone_h1 (s : State) : (markDone s).h1 = s.h1 := rfl
@[simp] theorem markDone_h2 (s : State) : (markDone s).h2 = s.h2 := rfl
@[simp] theorem markDone_tidx (s : State) : (markDone s).tidx = s.tidx := rfl
@[simp] theorem markDone_shm8 (s : State) : (markDone s).shm8 = s.shm8 := rfl
@[simp] theorem markDone_fbuf (s : State) : (markDone s).fbuf = s.fbuf := rfl
@[simp] theorem markDone_pos (s : State) : (markDone s).pos = s.pos := rfl
@[simp] theorem markDone_k (s : State) : (markDone s).k = s.k := rfl
@[simp] theorem markDone_phase (s : State) : (markDone s).phase = s.phase := rfl
@[simp] theorem markDone_frameCount (s : State) : (markDone s).frameCount = s.frameCount := rfl
@[simp] theorem markDone_done (s : State) : (markDone s).done = true := rfl
@[simp] theorem markDone_errKind (s : State) : (markDone s).errKind = s.errKind := rfl
@[simp] theorem markDone_errFrame (s : State) : (markDone s).errFrame = s.errFrame := rfl
@[simp] theorem markDone_errInfo (s : State) : (markDone s).errInfo = s.errInfo := rfl
@[simp] theorem markDone_frameCntW (s : State) : (markDone s).frameCntW = s.frameCntW := rfl
@[simp] theorem markDone_edges (s : State) : (markDone s).edges = s.edges := rfl
@[simp] theorem markDone_held (s : State) : (markDone s).held = s.held := rfl
@[simp] theorem markDone_draws (s : State) : (markDone s).draws = s.draws := rfl
@[simp] theorem markDone_earlier (s : State) : (markDone s).earlier = s.earlier := rfl
@[simp] theorem markDone_stream (s : State) : (markDone s).stream = s.stream := rfl

@[simp] theorem shiftHistory_h1 (x : Sample) (s : State) : (shiftHistory x s).h1 = x := rfl
@[simp] theorem shiftHistory_h2 (x : Sample) (s : State) : (shiftHistory x s).h2 = s.h1 := rfl
@[simp] theorem shiftHistory_tidx (x : Sample) (s : State) : (shiftHistory x s).tidx = s.tidx := rfl
@[simp] theorem shiftHistory_shm8 (x : Sample) (s : State) : (shiftHistory x s).shm8 = s.shm8 := rfl
@[simp] theorem shiftHistory_fbuf (x : Sample) (s : State) : (shiftHistory x s).fbuf = s.fbuf := rfl
@[simp] theorem shiftHistory_pos (x : Sample) (s : State) : (shiftHistory x s).pos = s.pos := rfl
@[simp] theorem shiftHistory_k (x : Sample) (s : State) : (shiftHistory x s).k = s.k := rfl
@[simp] theorem shiftHistory_phase (x : Sample) (s : State) : (shiftHistory x s).phase = s.phase := rfl
@[simp] theorem shiftHistory_frameCount (x : Sample) (s : State) : (shiftHistory x s).frameCount = s.frameCount := rfl
@[simp] theorem shiftHistory_done (x : Sample) (s : State) : (shiftHistory x s).done = s.done := rfl
@[simp] theorem shiftHistory_errKind (x : Sample) (s : State) : (shiftHistory x s).errKind = s.errKind := rfl
@[simp] theorem shiftHistory_errFrame (x : Sample) (s : State) : (shiftHistory x s).errFrame = s.errFrame := rfl
@[simp] theorem shiftHistory_errInfo (x : Sample) (s : State) : (shiftHistory x s).errInfo = s.errInfo := rfl
@[simp] theorem shiftHistory_frameCntW (x : Sample) (s : State) : (shiftHistory x s).frameCntW = s.frameCntW := rfl
@[simp] theorem shiftHistory_edges (x : Sample) (s : State) : (shiftHistory x s).edges = s.edges := rfl
@[simp] theorem shiftHistory_held (x : Sample) (s : State) : (shiftHistory x s).held = s.held := rfl
@[simp] theorem shiftHistory_draws (x : Sample) (s : State) : (shiftHistory x s).draws = s.draws := rfl
@[simp] theorem shiftHistory_earlier (x : Sample) (s : State) : (shiftHistory x s).earlier = s.earlier := rfl
@[simp] theorem shiftHistory_stream (x : Sample) (s : State) : (shiftHistory x s).stream = s.stream := rfl

@[simp] theorem emit_h1 (x : Sample) (s : State) : (emit x s).h1 = s.h1 := rfl
@[simp] theorem emit_h2 (x : Sample) (s : State) : (emit x s).h2 = s.h2 := rfl
@[simp] theorem emit_tidx (x : Sample) (s : State) : (emit x s).tidx = s.tidx := rfl
@[simp] theorem emit_shm8 (x : Sample) (s : State) : (emit x s).shm8 = s.shm8 := rfl
@[simp] theorem emit_fbuf (x : Sample) (s : State) : (emit x s).fbuf = s.fbuf := rfl
@[simp] theorem emit_pos (x : Sample) (s : State) : (emit x s).pos = s.pos := rfl
@[simp] theorem emit_k (x : Sample) (s : State) : (emit x s).k = s.k := rfl
@[simp] theorem emit_phase (x : Sample) (s : State) : (emit x s).phase = s.phase := rfl
@[simp] theorem emit_frameCount (x : Sample) (s : State) : (emit x s).frameCount = s.frameCount := rfl
@[simp] theorem emit_done (x : Sample) (s : State) : (emit x s).done = s.done := rfl
@[simp] theorem emit_errKind (x : Sample) (s : State) : (emit x s).errKind = s.errKind := rfl
@[simp] theorem emit_errFrame (x : Sample) (s : State) : (emit x s).errFrame = s.errFrame := rfl
@[simp] theorem emit_errInfo (x : Sample) (s : State) : (emit x s).errInfo = s.errInfo := rfl
@[simp] theorem emit_frameCntW (x : Sample) (s : State) : (emit x s).frameCntW = s.frameCntW := rfl
@[simp] theorem emit_edges (x : Sample) (s : State) : (emit x s).edges = s.edges := rfl
@[simp] theorem emit_held (x : Sample) (s : State) : (emit x s).held = s.held := rfl
@[simp] theorem emit_draws (x : Sample) (s : State) : (emit x s).draws = s.draws := rfl
@[simp] theorem emit_earlier (x : Sample) (s : State) : (emit x s).earlier = s.earlier := rfl
@[simp] theorem emit_stream (x : Sample) (s : State) : (emit x s).stream = s.stream ++ [x] := rfl

@[simp] theorem advanceK_h1 (s : State) : (advanceK s).h1 = s.h1 := rfl
@[simp] theorem advanceK_h2 (s : State) : (advanceK s).h2 = s.h2 := rfl
@[simp] theorem advanceK_tidx (s : State) : (advanceK s).tidx = s.tidx := rfl
@[simp] theorem advanceK_shm8 (s : State) : (advanceK s).shm8 = s.shm8 := rfl
@[simp] theorem advanceK_fbuf (s : State) : (advanceK s).fbuf = s.fbuf := rfl
@[simp] theorem advanceK_pos (s : State) : (advanceK s).pos = s.pos := rfl
@[simp] theorem advanceK_k (s : State) : (advanceK s).k = s.k + 1 := rfl
@[simp] theorem advanceK_phase (s : State) : (advanceK s).phase = s.phase := rfl
@[simp] theorem advanceK_frameCount (s : State) : (advanceK s).frameCount = s.frameCount := rfl
@[simp] theorem advanceK_done (s : State) : (advanceK s).done = s.done := rfl
@[simp] theorem advanceK_errKind (s : State) : (advanceK s).errKind = s.errKind := rfl
@[simp] theorem advanceK_errFrame (s : State) : (advanceK s).errFrame = s.errFrame := rfl
@[simp] theorem advanceK_errInfo (s : State) : (advanceK s).errInfo = s.errInfo := rfl
@[simp] theorem advanceK_frameCntW (s : State) : (advanceK s).frameCntW = s.frameCntW := rfl
@[simp] theorem advanceK_edges (s : State) : (advanceK s).edges = s.edges := rfl
@[simp] theorem advanceK_held (s : State) : (advanceK s).held = s.held := rfl
@[simp] theorem advanceK_draws (s : State) : (advanceK s).draws = s.draws := rfl
@[simp] theorem advanceK_earlier (s : State) : (advanceK s).earlier = s.earlier := rfl
@[simp] theorem advanceK_stream (s : State) : (advanceK s).stream = s.stream := rfl

@[simp] theorem retire_h1 (s : State) : (retire s).h1 = s.h1 := rfl
@[simp] theorem retire_h2 (s : State) : (retire s).h2 = s.h2 := rfl
@[simp] theorem retire_tidx (s : State) : (retire s).tidx = s.tidx := rfl
@[simp] theorem retire_shm8 (s : State) : (retire s).shm8 = s.shm8 := rfl
@[simp] theorem retire_fbuf (s : State) : (retire s).fbuf = s.fbuf := rfl
@[simp] theorem retire_pos (s : State) : (retire s).pos = s.pos := rfl
@[simp] theorem retire_k (s : State) : (retire s).k = 0 := rfl
@[simp] theorem retire_phase (s : State) : (retire s).phase = .accept := rfl
@[simp] theorem retire_frameCount (s : State) : (retire s).frameCount = wrapU s.frameCntW (s.frameCount + 1) := rfl
@[simp] theorem retire_done (s : State) : (retire s).done = s.done := rfl
@[simp] theorem retire_errKind (s : State) : (retire s).errKind = s.errKind := rfl
@[simp] theorem retire_errFrame (s : State) : (retire s).errFrame = s.errFrame := rfl
@[simp] theorem retire_errInfo (s : State) : (retire s).errInfo = s.errInfo := rfl
@[simp] theorem retire_frameCntW (s : State) : (retire s).frameCntW = s.frameCntW := rfl
@[simp] theorem retire_edges (s : State) : (retire s).edges = s.edges := rfl
@[simp] theorem retire_held (s : State) : (retire s).held = s.held := rfl
@[simp] theorem retire_draws (s : State) : (retire s).draws = s.draws := rfl
@[simp] theorem retire_earlier (s : State) : (retire s).earlier = s.earlier := rfl
@[simp] theorem retire_stream (s : State) : (retire s).stream = s.stream := rfl

@[simp] theorem resetStep_h1 (s : State) : (resetStep s).h1 = 0 := rfl
@[simp] theorem resetStep_h2 (s : State) : (resetStep s).h2 = 0 := rfl
@[simp] theorem resetStep_tidx (s : State) : (resetStep s).tidx = 0 := rfl
@[simp] theorem resetStep_shm8 (s : State) : (resetStep s).shm8 = 0 := rfl
@[simp] theorem resetStep_fbuf (s : State) : (resetStep s).fbuf = Vector.ofFn fun i => Config.freeByte (15 * s.draws + i.val) := rfl
@[simp] theorem resetStep_pos (s : State) : (resetStep s).pos = 0 := rfl
@[simp] theorem resetStep_k (s : State) : (resetStep s).k = 0 := rfl
@[simp] theorem resetStep_phase (s : State) : (resetStep s).phase = .accept := rfl
@[simp] theorem resetStep_frameCount (s : State) : (resetStep s).frameCount = 0 := rfl
@[simp] theorem resetStep_done (s : State) : (resetStep s).done = false := rfl
@[simp] theorem resetStep_errKind (s : State) : (resetStep s).errKind = .none := rfl
@[simp] theorem resetStep_errFrame (s : State) : (resetStep s).errFrame = 0 := rfl
@[simp] theorem resetStep_errInfo (s : State) : (resetStep s).errInfo = 0 := rfl
@[simp] theorem resetStep_frameCntW (s : State) : (resetStep s).frameCntW = s.frameCntW := rfl
@[simp] theorem resetStep_edges (s : State) : (resetStep s).edges = s.edges := rfl
@[simp] theorem resetStep_held (s : State) : (resetStep s).held = none := rfl
@[simp] theorem resetStep_draws (s : State) : (resetStep s).draws = s.draws := rfl
@[simp] theorem resetStep_earlier (s : State) : (resetStep s).earlier = s.earlier ++ s.stream := rfl
@[simp] theorem resetStep_stream (s : State) : (resetStep s).stream = [] := rfl

@[simp] theorem consumeEdge_h1 (rest : List Edge) (s : State) : (consumeEdge rest s).h1 = s.h1 := rfl
@[simp] theorem consumeEdge_h2 (rest : List Edge) (s : State) : (consumeEdge rest s).h2 = s.h2 := rfl
@[simp] theorem consumeEdge_tidx (rest : List Edge) (s : State) : (consumeEdge rest s).tidx = s.tidx := rfl
@[simp] theorem consumeEdge_shm8 (rest : List Edge) (s : State) : (consumeEdge rest s).shm8 = s.shm8 := rfl
@[simp] theorem consumeEdge_fbuf (rest : List Edge) (s : State) : (consumeEdge rest s).fbuf = s.fbuf := rfl
@[simp] theorem consumeEdge_pos (rest : List Edge) (s : State) : (consumeEdge rest s).pos = s.pos := rfl
@[simp] theorem consumeEdge_k (rest : List Edge) (s : State) : (consumeEdge rest s).k = s.k := rfl
@[simp] theorem consumeEdge_phase (rest : List Edge) (s : State) : (consumeEdge rest s).phase = s.phase := rfl
@[simp] theorem consumeEdge_frameCount (rest : List Edge) (s : State) : (consumeEdge rest s).frameCount = s.frameCount := rfl
@[simp] theorem consumeEdge_done (rest : List Edge) (s : State) : (consumeEdge rest s).done = s.done := rfl
@[simp] theorem consumeEdge_errKind (rest : List Edge) (s : State) : (consumeEdge rest s).errKind = s.errKind := rfl
@[simp] theorem consumeEdge_errFrame (rest : List Edge) (s : State) : (consumeEdge rest s).errFrame = s.errFrame := rfl
@[simp] theorem consumeEdge_errInfo (rest : List Edge) (s : State) : (consumeEdge rest s).errInfo = s.errInfo := rfl
@[simp] theorem consumeEdge_frameCntW (rest : List Edge) (s : State) : (consumeEdge rest s).frameCntW = s.frameCntW := rfl
@[simp] theorem consumeEdge_edges (rest : List Edge) (s : State) : (consumeEdge rest s).edges = rest := rfl
@[simp] theorem consumeEdge_held (rest : List Edge) (s : State) : (consumeEdge rest s).held = s.held := rfl
@[simp] theorem consumeEdge_draws (rest : List Edge) (s : State) : (consumeEdge rest s).draws = s.draws + 1 := rfl
@[simp] theorem consumeEdge_earlier (rest : List Edge) (s : State) : (consumeEdge rest s).earlier = s.earlier := rfl
@[simp] theorem consumeEdge_stream (rest : List Edge) (s : State) : (consumeEdge rest s).stream = s.stream := rfl

@[simp] theorem setHeld_h1 (o : Option TokenWord) (s : State) : (setHeld o s).h1 = s.h1 := rfl
@[simp] theorem setHeld_h2 (o : Option TokenWord) (s : State) : (setHeld o s).h2 = s.h2 := rfl
@[simp] theorem setHeld_tidx (o : Option TokenWord) (s : State) : (setHeld o s).tidx = s.tidx := rfl
@[simp] theorem setHeld_shm8 (o : Option TokenWord) (s : State) : (setHeld o s).shm8 = s.shm8 := rfl
@[simp] theorem setHeld_fbuf (o : Option TokenWord) (s : State) : (setHeld o s).fbuf = s.fbuf := rfl
@[simp] theorem setHeld_pos (o : Option TokenWord) (s : State) : (setHeld o s).pos = s.pos := rfl
@[simp] theorem setHeld_k (o : Option TokenWord) (s : State) : (setHeld o s).k = s.k := rfl
@[simp] theorem setHeld_phase (o : Option TokenWord) (s : State) : (setHeld o s).phase = s.phase := rfl
@[simp] theorem setHeld_frameCount (o : Option TokenWord) (s : State) : (setHeld o s).frameCount = s.frameCount := rfl
@[simp] theorem setHeld_done (o : Option TokenWord) (s : State) : (setHeld o s).done = s.done := rfl
@[simp] theorem setHeld_errKind (o : Option TokenWord) (s : State) : (setHeld o s).errKind = s.errKind := rfl
@[simp] theorem setHeld_errFrame (o : Option TokenWord) (s : State) : (setHeld o s).errFrame = s.errFrame := rfl
@[simp] theorem setHeld_errInfo (o : Option TokenWord) (s : State) : (setHeld o s).errInfo = s.errInfo := rfl
@[simp] theorem setHeld_frameCntW (o : Option TokenWord) (s : State) : (setHeld o s).frameCntW = s.frameCntW := rfl
@[simp] theorem setHeld_edges (o : Option TokenWord) (s : State) : (setHeld o s).edges = s.edges := rfl
@[simp] theorem setHeld_held (o : Option TokenWord) (s : State) : (setHeld o s).held = o := rfl
@[simp] theorem setHeld_draws (o : Option TokenWord) (s : State) : (setHeld o s).draws = s.draws := rfl
@[simp] theorem setHeld_earlier (o : Option TokenWord) (s : State) : (setHeld o s).earlier = s.earlier := rfl
@[simp] theorem setHeld_stream (o : Option TokenWord) (s : State) : (setHeld o s).stream = s.stream := rfl

end Sys2Proof.Machine
end

