-- ==== Sys2Proof/Laws/Ops.lean ====
section
/-! SUPPORT. What each shared operation can do, said once: the sample step, the header rows, the byte capture, the tokens by
phase, and one step of the machine. Proofs cite these and unfold none of the operations. -/

namespace Sys2Proof.Machine

/-! ### Outcomes -/

@[simp] theorem andThen_next (t : State) (f : State → Host.Outcome State Fault Refusal) : andThen (.next t) f = f t := rfl
@[simp] theorem andThen_fault (r : Fault) (f : State → Host.Outcome State Fault Refusal) :
    andThen (.fault r) f = .fault r := rfl
@[simp] theorem andThen_refused (r : Refusal) (f : State → Host.Outcome State Fault Refusal) :
    andThen (.refused r) f = .refused r := rfl

/-! ### The sample step -/

theorem sampleOp_eq (n : Nibble) (s : State) :
    sampleOp n s = shiftHistory (reconstruct n s.tidx s.shm8 s.h1 s.h2) s := rfl

theorem finishSample_early {s : State} (h : s.k.toNat < 27) : finishSample s = advanceK (emit s.h1 s) := if_pos h

theorem finishSample_last {s : State} (h : ¬ s.k.toNat < 27) : finishSample s = retire (emit s.h1 s) := if_neg h

theorem sampleStep_early {n : Nibble} {s : State} (h : s.k.toNat < 27) :
    sampleStep n s = advanceK (emit (reconstruct n s.tidx s.shm8 s.h1 s.h2) (sampleOp n s)) := if_pos h

theorem sampleStep_last {n : Nibble} {s : State} (h : ¬ s.k.toNat < 27) :
    sampleStep n s = retire (emit (reconstruct n s.tidx s.shm8 s.h1 s.h2) (sampleOp n s)) := if_neg h

/-- The fields a sample step writes whatever k is. -/
theorem sampleStep_written (n : Nibble) (s : State) :
    (sampleStep n s).h1 = reconstruct n s.tidx s.shm8 s.h1 s.h2 ∧ (sampleStep n s).h2 = s.h1 ∧
      (sampleStep n s).stream = s.stream ++ [reconstruct n s.tidx s.shm8 s.h1 s.h2] := by
  by_cases h : s.k.toNat < 27
  · simp [sampleStep_early h, sampleOp_eq]
  · simp [sampleStep_last h, sampleOp_eq]

/-- The fields no sample step writes. -/
theorem sampleStep_frame (n : Nibble) (s : State) :
    (sampleStep n s).tidx = s.tidx ∧ (sampleStep n s).shm8 = s.shm8 ∧ (sampleStep n s).fbuf = s.fbuf ∧
      (sampleStep n s).pos = s.pos ∧ (sampleStep n s).done = s.done ∧ (sampleStep n s).errKind = s.errKind ∧
      (sampleStep n s).errFrame = s.errFrame ∧ (sampleStep n s).errInfo = s.errInfo ∧
      (sampleStep n s).frameCntW = s.frameCntW ∧ (sampleStep n s).edges = s.edges ∧ (sampleStep n s).held = s.held ∧
      (sampleStep n s).draws = s.draws ∧ (sampleStep n s).earlier = s.earlier := by
  by_cases h : s.k.toNat < 27
  · simp [sampleStep_early h, sampleOp_eq]
  · simp [sampleStep_last h, sampleOp_eq]

/-- A residual byte exists exactly for k below 28 (R81). -/
theorem residualByte_isSome (s : State) : (residualByte s).isSome ↔ s.k.toNat < 28 := by
  unfold residualByte
  split <;> simp <;> omega

theorem nibbleAt_isSome (s : State) : (nibbleAt s).isSome ↔ s.k.toNat < 28 := by
  rw [← residualByte_isSome s, nibbleAt]; simp

theorem nibbleAt_lt {s : State} {n : Nibble} (h : nibbleAt s = some n) : s.k.toNat < 28 :=
  (nibbleAt_isSome s).mp (by simp [h])

/-- A sample transfer answers a next state exactly for k below 28, and it is the sample step's. -/
theorem sampleTransfer_some {s : State} {n : Nibble} (h : nibbleAt s = some n) :
    sampleTransfer s = .next (sampleStep n s) := by
  simp [sampleTransfer, h, decode, exec, execSample, sampleStep]

theorem sampleTransfer_none {s : State} (h : nibbleAt s = none) : sampleTransfer s = .fault .illegalK := by
  simp [sampleTransfer, h]

/-! ### The header rows -/

theorem hiNibble_toNat (b : Byte) : (hiNibble b).toNat = b.toNat / 16 := by
  simp only [hiNibble, BitVec.extractLsb'_toNat, Nat.shiftRight_eq_div_pow]
  omega

theorem loNibble_toNat (b : Byte) : (loNibble b).toNat = b.toNat % 16 := by
  simp [loNibble, BitVec.extractLsb'_toNat]

theorem hiNibble_append_loNibble (b : Byte) : hiNibble b ++ loNibble b = b := by
  unfold hiNibble loNibble
  rw [BitVec.extractLsb'_append_extractLsb'_eq_extractLsb' (by rfl)]
  simp

/-- The table index of a header byte, and the two bits of it that HeaderValid latches (R54, R56, R78). -/
theorem header_index (hb : Byte) :
    (hb.toNat < 64 ∧ hiNibble hb = 0 ∧ hb.extractLsb' 4 2 = 0) ∨ (hb.toNat < 64 ∧ hiNibble hb = 1 ∧ hb.extractLsb' 4 2 = 1) ∨
      (hb.toNat < 64 ∧ hiNibble hb = 2 ∧ hb.extractLsb' 4 2 = 2) ∨ (hb.toNat < 64 ∧ hiNibble hb = 3 ∧ hb.extractLsb' 4 2 = 3) ∨
      (¬ hb.toNat < 64 ∧ hiNibble hb ≠ 0 ∧ hiNibble hb ≠ 1 ∧ hiNibble hb ≠ 2 ∧ hiNibble hb ≠ 3) := by
  revert hb; decide

/-- The row of the header byte decides between HeaderValid and error entry (R77-R79). -/
theorem runHeader_eq (hb : Byte) (s : State) :
    runHeader hb s = if hb.toNat < 64 then .next (headerValid (hb.extractLsb' 4 2) (loNibble hb) s)
      else .next (errorEntry .invalidPredictorIndex hb s) := by
  rcases header_index hb with ⟨h, hi, hx⟩ | ⟨h, hi, hx⟩ | ⟨h, hi, hx⟩ | ⟨h, hi, hx⟩ | ⟨h, h0, h1, h2, h3⟩
  · simp [runHeader, execHdrP0, h, hi, hx]
  · simp [runHeader, execHdrP1, h, hi, hx]
  · simp [runHeader, execHdrP2, h, hi, hx]
  · simp [runHeader, execHdrP3, h, hi, hx]
  · rw [runHeader, if_neg h0, if_neg h1, if_neg h2, if_neg h3, if_neg h]
    simp [execHdrBad47, execHdrBad8F, hiNibble_append_loNibble]

/-! ### The byte capture -/

/-- What a byte capture answers (R76, R77): the three cases of pos. -/
theorem captureByte_cases (b : Byte) (s : State) :
    (∃ h : s.pos.toNat < 14,
      captureByte b s = .next (setPos (s.pos + 1) (writeByte ⟨s.pos.toNat, by omega⟩ b s))) ∨
    (s.pos = 14 ∧ captureByte b s = runHeader s.fbuf[0] (setPos 0 (writeByte 14 b s))) ∨
    (s.pos = 15 ∧ captureByte b s = .fault .illegalPos) := by
  have hp := s.pos.isLt
  by_cases h14 : s.pos.toNat < 14
  · exact .inl ⟨h14, by simp [captureByte, h14, show s.pos.toNat < 15 by omega]⟩
  by_cases h15 : s.pos.toNat < 15
  · have h : s.pos = 14 := by rw [← BitVec.toNat_inj]; simp; omega
    refine .inr (.inl ⟨h, ?_⟩)
    simp [captureByte, frameComplete, h, writeByte, setPos]
  · have h : s.pos = 15 := by rw [← BitVec.toNat_inj]; simp; omega
    exact .inr (.inr ⟨h, by simp [captureByte, h]⟩)

/-! ### The tokens, and one step -/

theorem tokCmd_tokWord (c : BitVec 2) (d : Byte) : tokCmd (tokWord c d) = c := by revert c d; decide

theorem tokData_tokWord (c : BitVec 2) (d : Byte) : tokData (tokWord c d) = d := by revert c d; decide

theorem offer_some {e : Edge} {w : TokenWord} (h : offer e = some w) : e.tokValid = true ∧ w = tokWord e.tokCmd e.tokData := by
  unfold offer at h
  split at h
  · exact ⟨‹_›, (Option.some.inj h).symm⟩
  · cases h

/-- The states a token taken in ACCEPT or ERROR leads to, with the token's command (R76-R79, R88-R91). -/
inductive TokenEffect (w : TokenWord) (s : State) : State → Prop where
  | captured (hc : tokCmd w = 0) (hp : s.phase = .accept) (i : Fin 15) (hi : i.val = s.pos.toNat) (h : s.pos.toNat < 14) :
      TokenEffect w s (setPos (s.pos + 1) (writeByte i (tokData w) s))
  | frameValid (hc : tokCmd w = 0) (hp : s.phase = .accept) (h : s.pos = 14) (ht : s.fbuf[0].toNat < 64) :
      TokenEffect w s
        (headerValid (s.fbuf[0].extractLsb' 4 2) (loNibble s.fbuf[0]) (setPos 0 (writeByte 14 (tokData w) s)))
  | frameInvalid (hc : tokCmd w = 0) (hp : s.phase = .accept) (h : s.pos = 14) (ht : ¬ s.fbuf[0].toNat < 64) :
      TokenEffect w s (errorEntry .invalidPredictorIndex s.fbuf[0] (setPos 0 (writeByte 14 (tokData w) s)))
  | cleared (hc : tokCmd w = 1) (hp : s.phase ≠ .decode) : TokenEffect w s (clearStream s)
  | ended (hc : tokCmd w = 2) (hp : s.phase = .accept) (h : s.pos = 0) : TokenEffect w s (markDone s)
  | truncated (hc : tokCmd w = 2) (hp : s.phase = .accept) (h : s.pos ≠ 0) :
      TokenEffect w s (errorEntry .truncatedInput (s.pos.setWidth 8) s)
  | reserved (hc : tokCmd w = 3) (hp : s.phase = .accept) : TokenEffect w s (errorEntry .reservedToken (tokData w) s)
  | discarded (hc : tokCmd w ≠ 1) (hp : s.phase = .error) : TokenEffect w s s

/-- A token taken outside DECODE has one of these effects. -/
theorem exec_tok_effect {w : TokenWord} {s t : State} (hp : s.phase ≠ .decode)
    (h : exec (decode (.tok w)) s = .next t) : TokenEffect w s t := by
  have hpos : s.phase = .accept ∨ s.phase = .error := by cases hs : s.phase <;> simp_all
  have cmd3 : ∀ c : BitVec 2, c ≠ 0 → c ≠ 1 → c ≠ 2 → c = 3 := by decide
  simp only [decode, decodeTok] at h
  rcases hpos with ha | he
  · split at h
    · simp only [exec, execData, ha] at h
      rcases captureByte_cases (tokData w) s with ⟨h14, hc⟩ | ⟨h14, hc⟩ | ⟨_, hc⟩
      · rw [hc] at h; cases h; exact .captured ‹_› ha _ rfl h14
      · rw [hc, runHeader_eq] at h
        split at h
        · cases h; exact .frameValid ‹_› ha h14 ‹_›
        · cases h; exact .frameInvalid ‹_› ha h14 ‹_›
      · rw [hc] at h; cases h
    split at h
    · simp only [exec, execClear, ha] at h; cases h; exact .cleared ‹_› hp
    split at h
    · simp only [exec, execEndTok, ha] at h
      split at h
      · cases h; exact .ended ‹_› ha ‹_›
      · cases h; exact .truncated ‹_› ha ‹_›
    · simp only [exec, execRsvd, ha] at h; cases h; exact .reserved (cmd3 _ ‹_› ‹_› ‹_›) ha
  · split at h
    · simp only [exec, execData, he] at h; cases h; exact .discarded (by simp [*]) he
    split at h
    · simp only [exec, execClear, he] at h; cases h; exact .cleared ‹_› hp
    split at h
    · simp only [exec, execEndTok, he] at h; cases h; exact .discarded ‹_› he
    · simp only [exec, execRsvd, he] at h; cases h; exact .discarded ‹_› he

/-- What one step can do: idle without an edge, reset, idle at an edge, take a token, hold a sample, transfer a sample. -/
inductive StepEffect (s : State) : State → Prop where
  | noEdge (h : s.edges = []) : StepEffect s s
  | reset (e : Edge) (rest : List Edge) (he : s.edges = e :: rest) (hr : e.rst = true) :
      StepEffect s (resetStep (consumeEdge rest s))
  | noToken (e : Edge) (rest : List Edge) (he : s.edges = e :: rest) (hr : e.rst = false) (hp : s.phase ≠ .decode)
      (ho : offer e = none) : StepEffect s (setHeld none (consumeEdge rest s))
  | token (e : Edge) (rest : List Edge) (w : TokenWord) (t : State) (he : s.edges = e :: rest) (hr : e.rst = false)
      (hp : s.phase ≠ .decode) (ho : offer e = some w)
      (hx : exec (decode (.tok w)) (setHeld none (consumeEdge rest s)) = .next t)
      (ht : TokenEffect w (setHeld none (consumeEdge rest s)) t) : StepEffect s t
  | held (e : Edge) (rest : List Edge) (he : s.edges = e :: rest) (hr : e.rst = false) (hp : s.phase = .decode)
      (hs : e.smpReady = false) : StepEffect s (setHeld (offer e) (consumeEdge rest s))
  | sample (e : Edge) (rest : List Edge) (n : Nibble) (he : s.edges = e :: rest) (hr : e.rst = false)
      (hp : s.phase = .decode) (hs : e.smpReady = true) (hn : nibbleAt s = some n) :
      StepEffect s (sampleStep n (setHeld (offer e) (consumeEdge rest s)))

theorem handshake_taking {e : Edge} {s : State} (h : s.phase ≠ .decode) :
    handshake e s = match offer e with | some w => tokenTransfer w s | none => .next (setHeld none s) := by
  cases hp : s.phase
  · cases ho : offer e <;> simp [handshake, hp, ho]
  · exact absurd hp h
  · cases ho : offer e <;> simp [handshake, hp, ho]

/-- Every step that answers a next state is one of these. -/
theorem step_effect {s t : State} (h : step s = .next t) : StepEffect s t := by
  unfold step nextEdge at h
  split at h
  · cases h; exact .noEdge ‹_›
  rename_i e rest he
  unfold edgeStep at h
  split at h
  · cases h; exact .reset e rest he ‹_›
  have hr : e.rst = false := by simpa using ‹¬ e.rst = true›
  split at h
  swap
  · cases h
  by_cases hp : s.phase = .decode
  · simp only [handshake, consumeEdge_phase, hp] at h
    cases hs : e.smpReady
    · rw [hs] at h; cases h; exact .held e rest he hr hp hs
    · rw [hs] at h
      simp only [if_true] at h
      cases hn : nibbleAt s with
      | none => rw [sampleTransfer_none (by exact hn)] at h; cases h
      | some n => rw [sampleTransfer_some (n := n) (by exact hn)] at h; cases h; exact .sample e rest n he hr hp hs hn
  · rw [handshake_taking (by simpa using hp)] at h
    cases ho : offer e with
    | none => rw [ho] at h; cases h; exact .noToken e rest he hr hp ho
    | some w => rw [ho] at h; exact .token e rest w t he hr hp ho h (exec_tok_effect (by simpa using hp) h)

end Sys2Proof.Machine
end

