-- ==== Sys2Proof/Laws/PerInstr.lean ====
section
/-! SUPPORT. The statements made per operation: the word of a well-formed operation belongs to the operation's own row of the
opcode map (spec/30_encoding.md R62). -/

namespace Sys2Proof.Laws

/-- The operation's word is covered by the row of its mnemonic. -/
def RowOfEncoding.Statement (i : Instr) : Prop :=
  i.wellFormed = true → ∃ r ∈ opcodeMap, r.mnemonic = mnemonic i ∧ rowCovers r (encode i) = true

theorem RowOfEncoding.data (b : Byte) : RowOfEncoding.Statement (.data b) := fun _ =>
  ⟨⟨"DATA", .tok, 0x000, 0x300⟩, by decide, rfl, by revert b; decide⟩

theorem RowOfEncoding.clear (d : Byte) : RowOfEncoding.Statement (.clear d) := fun _ =>
  ⟨⟨"CLEAR", .tok, 0x100, 0x300⟩, by decide, rfl, by revert d; decide⟩

theorem RowOfEncoding.endTok (d : Byte) : RowOfEncoding.Statement (.endTok d) := fun _ =>
  ⟨⟨"END", .tok, 0x200, 0x300⟩, by decide, rfl, by revert d; decide⟩

theorem RowOfEncoding.rsvd (d : Byte) : RowOfEncoding.Statement (.rsvd d) := fun _ =>
  ⟨⟨"RSVD", .tok, 0x300, 0x300⟩, by decide, rfl, by revert d; decide⟩

theorem RowOfEncoding.hdrP0 (m : Nibble) : RowOfEncoding.Statement (.hdrP0 m) := fun _ =>
  ⟨⟨"HDR.P0", .hdr, 0x00, 0xF0⟩, by decide, rfl, by revert m; decide⟩

theorem RowOfEncoding.hdrP1 (m : Nibble) : RowOfEncoding.Statement (.hdrP1 m) := fun _ =>
  ⟨⟨"HDR.P1", .hdr, 0x10, 0xF0⟩, by decide, rfl, by revert m; decide⟩

theorem RowOfEncoding.hdrP2 (m : Nibble) : RowOfEncoding.Statement (.hdrP2 m) := fun _ =>
  ⟨⟨"HDR.P2", .hdr, 0x20, 0xF0⟩, by decide, rfl, by revert m; decide⟩

theorem RowOfEncoding.hdrP3 (m : Nibble) : RowOfEncoding.Statement (.hdrP3 m) := fun _ =>
  ⟨⟨"HDR.P3", .hdr, 0x30, 0xF0⟩, by decide, rfl, by revert m; decide⟩

theorem RowOfEncoding.hdrBad47 (t m : Nibble) : RowOfEncoding.Statement (.hdrBad47 t m) := fun h =>
  ⟨⟨"HDR.BAD47", .hdr, 0x40, 0xC0⟩, by decide, rfl, by revert t m; decide⟩

theorem RowOfEncoding.hdrBad8F (t m : Nibble) : RowOfEncoding.Statement (.hdrBad8F t m) := fun h =>
  ⟨⟨"HDR.BAD8F", .hdr, 0x80, 0x80⟩, by decide, rfl, by revert t m; decide⟩

theorem RowOfEncoding.res (hi lo : Nibble) : RowOfEncoding.Statement (.res hi lo) := fun _ =>
  ⟨⟨"RES", .res, 0x00, 0x00⟩, by decide, rfl, by simp [rowCovers, encode, codeFormat]⟩

theorem RowOfEncoding.sample (n : Nibble) : RowOfEncoding.Statement (.sample n) := fun _ =>
  ⟨⟨"SAMPLE", .nib, 0x0, 0x0⟩, by decide, rfl, by simp [rowCovers, encode, codeFormat]⟩

end Sys2Proof.Laws
end

