-- ==== Sys2Proof/Laws/Step.lean ====
section
/-! SUPPORT. How one step and a run unfold: an edge, a live edge by phase, the word of an offered token, and one more step. -/

namespace Sys2Proof.Machine

theorem decode_tokWord (c : BitVec 2) (d : Byte) :
    decode (.tok (tokWord c d)) = if c = 0 then .data d else if c = 1 then .clear d else if c = 2 then .endTok d else .rsvd d := by
  simp only [decode, decodeTok, tokCmd_tokWord, tokData_tokWord]

theorem offer_valid {e : Edge} (h : e.tokValid = true) : offer e = some (tokWord e.tokCmd e.tokData) := by simp [offer, h]

@[simp] theorem hostStable_consumeEdge (e : Edge) (rest : List Edge) (s : State) :
    hostStable e (consumeEdge rest s) = hostStable e s := rfl

theorem step_edge {e : Edge} {rest : List Edge} {s : State} (h : s.edges = e :: rest) :
    step s = edgeStep e (consumeEdge rest s) := by
  simp [step, nextEdge, h]

theorem step_live {e : Edge} {rest : List Edge} {s : State} (h : s.edges = e :: rest) (hr : e.rst = false)
    (hs : hostStable e s = true) : step s = handshake e (consumeEdge rest s) := by
  rw [step_edge h, edgeStep, hr, hostStable_consumeEdge, hs]
  rfl

theorem handshake_decode {e : Edge} {s : State} (hp : s.phase = .decode) :
    handshake e s = if e.smpReady then sampleTransfer (setHeld (offer e) s) else .next (setHeld (offer e) s) := by
  simp [handshake, hp]

/-- An edge without a transfer outside DECODE shows in no status output (R29, R30). -/
theorem statusLevels_noTransfer (o : Option TokenWord) (rest : List Edge) {s : State} (hp : s.phase ≠ .decode) :
    statusLevels (setHeld o (consumeEdge rest s)) = statusLevels s := by
  cases hk : s.errKind <;> simp [statusLevels, hp, hk]

/-- A byte written at an index in range, in the form that needs no proof of the range. -/
theorem set_eq_setIfInBounds (fb : Vector Byte 15) (i : Nat) (hi : i < 15) (b : Byte) :
    fb.set i b hi = fb.setIfInBounds i b := by
  simp [Vector.setIfInBounds, Vector.set, Array.setIfInBounds, hi]

theorem selectNibble_toInt (k : BitVec 5) (b : Byte) :
    (selectNibble k b).toInt = if k.toNat % 2 = 0 then (hiNibble b).toInt else (loNibble b).toInt := by
  unfold selectNibble
  split <;> rfl

/-! ### The output byte stream (R38) -/

@[simp] theorem outputBytes_nil : outputBytes [] = [] := rfl

@[simp] theorem outputBytes_cons (x : Sample) (xs : List Sample) : outputBytes (x :: xs) = sampleBytes x ++ outputBytes xs := rfl

@[simp] theorem outputBytes_append (xs ys : List Sample) : outputBytes (xs ++ ys) = outputBytes xs ++ outputBytes ys :=
  List.flatMap_append

/-- A sample transfer appends its two bytes to the stream's. -/
@[simp] theorem streamBytes_emit (x : Sample) (s : State) : streamBytes (emit x s) = streamBytes s ++ sampleBytes x := by
  simp [streamBytes]

/-- One more step of a run. -/
theorem run_succ (n : Nat) {s t : State} (h : step s = .next t) : core.run (n + 1) s = core.run n t := by
  have : core.step s = .next t := h
  simp only [Host.Core.run, this]

end Sys2Proof.Machine
end

