-- ==== Sys2Proof/Tests/Slice0.lean ====
section
/-! SUPPORT. The model's own tests. Expected values are the spec's: spec/95_test_vectors.md (sections, vectors V1..V20) and the
rules named in each comment. The `witness_` theorems show states and operands that meet the hypotheses of the statements. -/

namespace Sys2Proof.Tests

open Sys2Proof Sys2Proof.Machine Sys2Proof.Safety

/-- The outcome is a next state with the property. -/
def nextWith (o : Host.Outcome State Fault Refusal) (p : State → Bool) : Bool :=
  match o with
  | .next t => p t
  | .fault _ => false
  | .refused _ => false

/-- ACCEPT with `p` bytes accepted, the header byte being `hb`. -/
def acceptAt (p : BitVec 4) (hb : Byte) : State :=
  { State.reset with pos := p, fbuf := (Vector.replicate 15 0).set 0 hb }

/-- DECODE at nibble `k` with latch (`t`, `m`), history (`x`, `y`) and residual bytes all `rb`, and these edges ahead. -/
def decodeAt (k : BitVec 5) (t : BitVec 2) (m : Nibble) (x y : Sample) (rb : Byte) (es : List Edge) : State :=
  { State.reset with phase := .decode, k := k, tidx := t, shm8 := m, h1 := x, h2 := y, fbuf := Vector.replicate 15 rb,
                     edges := es }

/-- ERROR after an invalid predictor index, with these edges ahead. -/
def errorAt (es : List Edge) : State :=
  { State.reset with phase := .error, errKind := .invalidPredictorIndex, errInfo := 0x40, edges := es }

/-! ### Well-formedness: each check refuses an ill-formed term -/

theorem test_wf_bad47_low : (Instr.hdrBad47 3 0).wellFormed = false := by decide
theorem test_wf_bad47_high : (Instr.hdrBad47 8 0).wellFormed = false := by decide
theorem test_wf_bad8F_low : (Instr.hdrBad8F 7 0).wellFormed = false := by decide
theorem test_wf_frame_short : (AsmLine.frame (List.replicate 14 0)).wellFormed = false := by decide
theorem test_wf_frame_exact : (AsmLine.frame (List.replicate 15 0)).wellFormed = true := by decide

/-! ### Decoding: one word for each row, written out from R50, R54, R57, R58 (spec/95_test_vectors.md 2.1, 2.2) -/

theorem test_decode_data : decode (.tok 0b0011111111#10) = .data 0xFF := by decide
theorem test_decode_clear : decode (.tok 0b0110100101#10) = .clear 0xA5 := by decide
theorem test_decode_end : decode (.tok 0b1000000000#10) = .endTok 0x00 := by decide
theorem test_decode_rsvd : decode (.tok 0b1101011010#10) = .rsvd 0x5A := by decide
theorem test_decode_hdrP0 : decode (.hdr 0b00001111#8) = .hdrP0 15 := by decide
theorem test_decode_hdrP1 : decode (.hdr 0b00011010#8) = .hdrP1 10 := by decide
theorem test_decode_hdrP2 : decode (.hdr 0b00101111#8) = .hdrP2 15 := by decide
theorem test_decode_hdrP3 : decode (.hdr 0b00110000#8) = .hdrP3 0 := by decide
theorem test_decode_hdrBad47_low : decode (.hdr 0b01000000#8) = .hdrBad47 4 0 := by decide
theorem test_decode_hdrBad47_high : decode (.hdr 0b01111111#8) = .hdrBad47 7 15 := by decide
theorem test_decode_hdrBad8F_low : decode (.hdr 0b10000000#8) = .hdrBad8F 8 0 := by decide
theorem test_decode_hdrBad8F_high : decode (.hdr 0b11111111#8) = .hdrBad8F 15 15 := by decide
theorem test_decode_res : decode (.res 0b10101011#8) = .res 0xA 0xB := by decide
theorem test_decode_sample : decode (.nib 0b1100#4) = .sample 12 := by decide
/-- A token is always 10 bits (R60). -/
theorem test_decodeWord_tooWide : (decodeWord .tok 0x400).toOption = none := by decide
theorem test_tableWord_token : decodeTableWord 16 0x35A = some (.rsvd 0x5A) := by decide
theorem test_tableWord_header : decodeTableWord 8 0x5C = some (.hdrBad47 5 12) := by decide
theorem test_tableWord_nibble : decodeTableWord 4 9 = some (.sample 9) := by decide

/-! ### The datapath (spec/95_test_vectors.md 2.2, 2.3) -/

/-- V1: the maximum accumulator, and the wrap of a positive q. -/
theorem test_datapath_V1 : (accumulate 7 2 0 32767 (BitVec.ofInt 16 (-32768))).toInt = 29228596 ∧
    (reconstruct 7 2 0 32767 (BitVec.ofInt 16 (-32768))).toInt = -16898 := by decide
/-- V2: the minimum accumulator, and the wrap of a negative q. -/
theorem test_datapath_V2 : (accumulate 8 2 0 (BitVec.ofInt 16 (-32768)) 32767).toInt = -30277424 ∧
    (reconstruct 8 2 0 (BitVec.ofInt 16 (-32768)) 32767).toInt = 12800 := by decide
/-- V3: the floor of a small negative sum. -/
theorem test_datapath_V3 : (scaledResidual 15 15).toInt = -32 ∧ (reconstruct 15 0 15 0 0).toInt = -1 := by decide
/-- V13, V14, V18. -/
theorem test_datapath_mid : (reconstruct 3 3 4 1000 (BitVec.ofInt 16 (-2000))).toInt = 4018 ∧
    (reconstruct 12 2 7 (BitVec.ofInt 16 (-5000)) 7000).toInt = -14800 ∧
    (reconstruct 9 1 2 (BitVec.ofInt 16 (-300)) 0).toInt = -7450 := by decide
/-- Output serialization (2.6): -4096 is F0 after 00. -/
theorem test_bytes_little : sampleBytes (BitVec.ofInt 16 (-4096)) = [0x00, 0xF0] := by decide

/-- S2 and P1: the output bytes of -32768, 0, -32768 begin `00 80 00 00`; bytes 2j and 2j + 1 are sample j's. -/
theorem test_bytes_stream : outputBytes [BitVec.ofInt 16 (-32768), 0, BitVec.ofInt 16 (-32768)] =
    [0x00, 0x80, 0x00, 0x00, 0x00, 0x80] := by decide

/-! ### One step each -/

/-- SAMPLE, V20 and the history shift: h2 <- old h1. -/
theorem test_sample_wrap : nextWith (exec (.sample 1) (decodeAt 24 1 0 30599 32639 0 []))
    (fun t => t.h1.toInt == -32754 && t.h2.toInt == 30599) = true := by decide
/-- SAMPLE, V12. -/
theorem test_sample_negative : nextWith (exec (.sample 0) (decodeAt 0 3 0 (BitVec.ofInt 16 (-100)) 50 0 []))
    (fun t => t.h1.toInt == -197 && t.h2.toInt == -100) = true := by decide
/-- DATA, 2.4: ACCEPT, pos 7. -/
theorem test_data_store : nextWith (exec (.data 0xAB) (acceptAt 7 0))
    (fun t => t.fbuf[7] == 0xAB && t.pos == 8 && t.fbuf[8] == 0) = true := by decide
/-- DATA, 2.4: ACCEPT, pos 14, fbuf[0] = 0x1A. -/
theorem test_data_complete : nextWith (exec (.data 0) (acceptAt 14 0x1A))
    (fun t => t.pos == 0 && t.tidx == 1 && t.shm8 == 0xA && t.k == 0 && t.phase == .decode) = true := by decide
/-- HDR.P2, R78: header byte 0x2F. -/
theorem test_hdrP2_latch : nextWith (exec (decode (.hdr 0x2F)) (acceptAt 0 0x2F))
    (fun t => t.tidx == 2 && (romC1 t.tidx).toInt == 460 && (romC2 t.tidx).toInt == -208 && (shiftOf t.shm8).toNat == 23) = true := by
  decide
theorem test_hdrP0_latch : nextWith (exec (.hdrP0 0) State.reset) (fun t => t.phase == .decode && romC1 t.tidx == 0) = true := by
  decide
theorem test_hdrP1_latch : nextWith (exec (.hdrP1 3) State.reset) (fun t => (romC1 t.tidx).toInt == 240 && t.shm8 == 3) = true := by
  decide
theorem test_hdrP3_latch : nextWith (exec (.hdrP3 15) State.reset)
    (fun t => (romC1 t.tidx).toInt == 392 && (romC2 t.tidx).toInt == -220) = true := by decide
/-- DATA with HDR.BAD8F, 2.4: fbuf[0] = 0xC3. -/
theorem test_data_badHeader : nextWith (exec (.data 0) { acceptAt 14 0xC3 with frameCount := 3 })
    (fun t => t.phase == .error && errCode t.errKind == 2 && t.errInfo == 0xC3 && t.errFrame == 3 && t.pos == 0) = true := by decide
theorem test_hdrBad47_record : nextWith (exec (.hdrBad47 4 0) State.reset)
    (fun t => errCode t.errKind == 2 && t.errInfo == 0x40) = true := by decide
theorem test_hdrBad8F_record : nextWith (exec (.hdrBad8F 8 1) State.reset) (fun t => t.errInfo == 0x81) = true := by decide
/-- RES, R82: 0x80 under header 0x00 on zero history gives -32768 first. -/
theorem test_res_high : nextWith (exec (.res 8 0) (decodeAt 0 0 0 0 0 0 []))
    (fun t => t.stream.map BitVec.toInt == [-32768] && t.k == 1) = true := by decide
/-- RES, R82: 0x0F gives (0, 15); the odd sample is the low nibble's, and k = 27 retires (R83). -/
theorem test_res_low_retires : nextWith (exec (.res 0 15) { decodeAt 27 0 0 0 0 0 [] with frameCount := 0xFFFFFFFF })
    (fun t => t.stream.map BitVec.toInt == [-4096] && t.k == 0 && t.phase == .accept && t.frameCount == 0) = true := by decide
/-- CLEAR, 2.5. -/
theorem test_clear_midFrame : nextWith (exec (.clear 0xA5) { acceptAt 5 0 with frameCount := 2, h1 := 77 })
    (fun t => t.pos == 0 && t.frameCount == 0 && t.h1 == 0 && t.errKind == .none) = true := by decide
theorem test_clear_error : nextWith (exec (.clear 0) (errorAt [])) (fun t => t.phase == .accept && t.errInfo == 0) = true := by decide
/-- END, 2.5: pos 14, frame_count 3. -/
theorem test_end_truncated : nextWith (exec (.endTok 0) { acceptAt 14 0 with frameCount := 3 })
    (fun t => errCode t.errKind == 1 && t.errInfo == 14 && t.errFrame == 3 && t.phase == .error) = true := by decide
theorem test_end_done : nextWith (exec (.endTok 0xFF) (acceptAt 0 0)) (fun t => t.done && t.phase == .accept) = true := by decide
/-- RSVD, 2.5. -/
theorem test_rsvd_midFrame : nextWith (exec (.rsvd 0x5A) (acceptAt 2 0))
    (fun t => errCode t.errKind == 3 && t.errInfo == 0x5A && t.pos == 0) = true := by decide
theorem test_rsvd_error : nextWith (exec (.rsvd 0x11) (errorAt [])) (fun t => errCode t.errKind == 2 && t.errInfo == 0x40) = true := by
  decide
/-- Nibble selection, 2.4. -/
theorem test_nibble_order : selectNibble 2 0xCD = 0xC ∧ selectNibble 3 0xCD = 0xD ∧
    nibbleAt { State.reset with k := 27, fbuf := (Vector.replicate 15 0).set 14 0x5E } = some 0xE := by decide
/-- R118: a reset beats a transfer at the same edge, and the stream starts anew. -/
theorem test_step_reset : nextWith (step { decodeAt 9 0 0 5 6 0 [⟨true, true, 0, 1, true⟩] with stream := [5] })
    (fun t => t.phase == .accept && t.h1 == 0 && t.stream.isEmpty && t.earlier == [5]) = true := by decide
/-- R92: a token offered in DECODE waits, and the host must hold it. -/
theorem test_step_tokenWaits : nextWith (step (decodeAt 9 0 0 0 0 0 [⟨false, true, 1, 0, false⟩]))
    (fun t => t.k == 9 && t.held == some 0x100 && t.phase == .decode) = true := by decide
/-- S6: header 0x00, fbuf[1] = 0xF0, k = 0 emits -4096, the bytes `00 F0`. -/
theorem test_step_sample : nextWith (step (decodeAt 0 0 0 0 0 0xF0 [takeEdge]))
    (fun t => t.stream.map BitVec.toInt == [-4096] && streamBytes t == [0x00, 0xF0]) = true := by decide
theorem test_withFetchWord_token : nextWith (step (State.reset.withFetchWord 16 0x35A)) (fun t => t.errInfo == 0x5A) = true := by
  decide
theorem test_withFetchWord_header : nextWith (step (State.reset.withFetchWord 8 0x2F))
    (fun t => t.tidx == 2 && t.shm8 == 15 && t.phase == .decode) = true := by decide
theorem test_withFetchWord_nibble : nextWith (step (State.reset.withFetchWord 4 15)) (fun t => t.h1.toInt == -4096) = true := by decide

/-! ### Assembly (R63, R64) -/

theorem test_asm_data : (assembleLine ['D', 'A', 'T', 'A', ' ', '0', 'x', '7', 'f', ';', 'x']).toOption = some [0x07F] := by decide
theorem test_asm_frameRep : (assembleLine ['F', 'R', 'A', 'M', 'E', ' ', '1', '0', ' ', 'r', 'e', 'p', '(', '8', '0', ')']).toOption =
    some (0x010 :: List.replicate 14 0x080) := by decide
theorem test_asm_stream_empty : (assembleLine ['S', 'T', 'R', 'E', 'A', 'M']).toOption = some [0x100, 0x200] := by decide
theorem test_asm_short_frame : (assembleLine ['F', 'R', 'A', 'M', 'E', ' ', '1', '0']).toOption = none := by decide

/-! ### Witnesses: the hypotheses of each statement are met -/

theorem witness_wellFormed : (Instr.hdrBad47 4 0).wellFormed = true ∧ (Instr.hdrBad47 7 15).wellFormed = true ∧
    (Instr.hdrBad8F 8 0).wellFormed = true ∧ (Instr.hdrBad8F 15 15).wellFormed = true ∧ (Instr.sample 0).wellFormed = true := by decide
theorem witness_tokenCommands : (0x0FF#10).toNat / 256 = 0 ∧ (0x1FF#10).toNat / 256 = 1 ∧ (0x200#10).toNat / 256 = 2 ∧
    (0x3FF#10).toNat / 256 = 3 := by decide
theorem witness_sampleDepends : (acceptAt 3 0).tidx = State.reset.tidx ∧ (acceptAt 3 0).shm8 = State.reset.shm8 ∧
    (acceptAt 3 0).h1 = State.reset.h1 ∧ (acceptAt 3 0).h2 = State.reset.h2 ∧ (∃ t, exec (.sample 1) (acceptAt 3 0) = .next t) ∧
    ∃ t, exec (.sample 1) State.reset = .next t := ⟨rfl, rfl, rfl, rfl, ⟨_, rfl⟩, ⟨_, rfl⟩⟩
theorem witness_validHeader : (Instr.hdrP0 15 = if (0 : BitVec 2) = 0 then .hdrP0 15 else .hdrP3 15) ∧
    (Instr.hdrP3 15 = if (3 : BitVec 2) = 0 then .hdrP0 15 else if (3 : BitVec 2) = 1 then .hdrP1 15
      else if (3 : BitVec 2) = 2 then .hdrP2 15 else .hdrP3 15) := by decide
theorem witness_illegalHeader : 4 ≤ (4 : Nibble).toNat ∧ (4 : Nibble).toNat ≤ 7 ∧ 4 ≤ (7 : Nibble).toNat ∧ (7 : Nibble).toNat ≤ 7 ∧
    8 ≤ (8 : Nibble).toNat ∧ 8 ≤ (15 : Nibble).toNat := by decide
theorem witness_dataCapture : (acceptAt 13 0).phase = .accept ∧ (acceptAt 13 0).pos.toNat < 14 := by decide
theorem witness_dataValid : (acceptAt 14 0x3F).phase = .accept ∧ (acceptAt 14 0x3F).pos = 14 ∧ (acceptAt 14 0x3F).fbuf[0].toNat < 64 := by
  decide
theorem witness_dataInvalid : (acceptAt 14 0x40).phase = .accept ∧ (acceptAt 14 0x40).pos = 14 ∧
    64 ≤ (acceptAt 14 0x40).fbuf[0].toNat := by decide
theorem witness_errorPhase : (errorAt []).phase = .error := by decide
theorem witness_decodePhase : (decodeAt 27 0 0 0 0 0 []).phase = .decode ∧ (decodeAt 27 0 0 0 0 0 []).k.toNat < 28 := by decide
theorem witness_illegalPos : (acceptAt 15 0).phase = .accept ∧ (acceptAt 15 0).pos = 15 := by decide
theorem witness_illegalK : (decodeAt 28 0 0 0 0 0 [takeEdge]).phase = .decode ∧ 28 ≤ (decodeAt 28 0 0 0 0 0 [takeEdge]).k.toNat ∧
    (decodeAt 28 0 0 0 0 0 [takeEdge]).edges = takeEdge :: [] ∧ takeEdge.rst = false ∧ takeEdge.smpReady = true ∧
    hostStable takeEdge (decodeAt 28 0 0 0 0 0 [takeEdge]) = true := by decide
theorem witness_sampleStep_early : (decodeAt 26 0 0 0 0 0 [takeEdge]).edges = takeEdge :: [] ∧ takeEdge.rst = false ∧
    takeEdge.smpReady = true ∧ hostStable takeEdge (decodeAt 26 0 0 0 0 0 [takeEdge]) = true ∧
    (decodeAt 26 0 0 0 0 0 [takeEdge]).phase = .decode ∧ (decodeAt 26 0 0 0 0 0 [takeEdge]).k.toNat < 27 := by decide
theorem witness_sampleStep_last : (decodeAt 27 0 0 0 0 0 [takeEdge]).edges = takeEdge :: [] ∧
    hostStable takeEdge (decodeAt 27 0 0 0 0 0 [takeEdge]) = true ∧ (decodeAt 27 0 0 0 0 0 [takeEdge]).phase = .decode ∧
    (decodeAt 27 0 0 0 0 0 [takeEdge]).k.toNat = 27 := by decide
theorem witness_sampleStep_withheld : (decodeAt 9 0 0 0 0 0 [idleEdge]).edges = idleEdge :: [] ∧ idleEdge.rst = false ∧
    idleEdge.smpReady = false ∧ hostStable idleEdge (decodeAt 9 0 0 0 0 0 [idleEdge]) = true ∧
    (decodeAt 9 0 0 0 0 0 [idleEdge]).phase = .decode ∧ (decodeAt 9 0 0 0 0 0 [idleEdge]).k.toNat < 28 := by decide
theorem witness_twoSamples : (decodeAt 26 0 0 0 0 0 []).phase = .decode ∧ (decodeAt 26 0 0 0 0 0 []).k.toNat < 28 ∧
    (decodeAt 26 0 0 0 0 0 []).k.toNat % 2 = 0 := by decide
/-- For the whole frame (R84), and with zero residuals and history (R87). -/
theorem witness_frame : (decodeAt 0 3 15 0 0 0 (List.replicate 28 takeEdge ++ [])).phase = .decode ∧
    (decodeAt 0 3 15 0 0 0 (List.replicate 28 takeEdge ++ [])).k = 0 ∧
    (decodeAt 0 3 15 0 0 0 (List.replicate 28 takeEdge ++ [])).held = none ∧
    (decodeAt 0 3 15 0 0 0 (List.replicate 28 takeEdge ++ [])).h1 = 0 ∧
    (decodeAt 0 3 15 0 0 0 (List.replicate 28 takeEdge ++ [])).h2 = 0 ∧
    (∀ b ∈ (decodeAt 0 3 15 0 0 0 (List.replicate 28 takeEdge ++ [])).fbuf.toList.tail, b = 0) ∧
    (decodeAt 0 3 15 0 0 0 (List.replicate 28 takeEdge ++ [])).edges = List.replicate 28 takeEdge ++ [] := by decide
theorem witness_endInside : (acceptAt 1 0).phase = .accept ∧ (acceptAt 1 0).pos ≠ 0 := by decide
theorem witness_notDecode : (errorAt []).phase ≠ .decode ∧ State.reset.phase ≠ .decode := by decide
theorem witness_boundary : State.reset.phase = .accept ∧ State.reset.pos = 0 := by decide
theorem witness_discard : (errorAt [offerEdge 0x233]).edges = offerEdge 0x233 :: [] ∧ (offerEdge 0x233).rst = false ∧
    hostStable (offerEdge 0x233) (errorAt [offerEdge 0x233]) = true ∧ (errorAt [offerEdge 0x233]).phase = .error ∧
    (offerEdge 0x233).tokValid = true ∧ (offerEdge 0x233).tokCmd ≠ 1 := by decide
theorem witness_discard_clear : (errorAt [offerEdge 0x100]).edges = offerEdge 0x100 :: [] ∧
    hostStable (offerEdge 0x100) (errorAt [offerEdge 0x100]) = true ∧ (offerEdge 0x100).tokValid = true ∧
    (offerEdge 0x100).tokCmd = 1 := by decide
theorem witness_noTokenTaken : (decodeAt 9 0 0 0 0 0 [takeEdge]).phase = .decode ∧ takeEdge.rst = false ∧
    (offerEdge 0x0FF).rst = false ∧ takeEdge.smpReady = (offerEdge 0x0FF).smpReady ∧
    hostStable takeEdge (decodeAt 9 0 0 0 0 0 [takeEdge]) = true ∧ hostStable (offerEdge 0x0FF) (decodeAt 9 0 0 0 0 0 [takeEdge]) = true ∧
    (decodeAt 9 0 0 0 0 0 [takeEdge]).edges = takeEdge :: [] ∧ ∃ t, step (decodeAt 9 0 0 0 0 0 [takeEdge]) = .next t :=
  ⟨rfl, rfl, rfl, rfl, rfl, rfl, rfl, ⟨_, rfl⟩⟩
theorem witness_backPressure_reset : (decodeAt 9 0 0 0 0 0 [resetEdge]).phase = .decode ∧ resetEdge.smpReady = false ∧
    nextWith (step (decodeAt 9 0 0 0 0 0 [resetEdge])) (fun t => t.phase != .decode) = true := by decide
theorem witness_noTransfer : State.reset.edges = [] ∧ ({ State.reset with edges := [idleEdge] } : State).edges = idleEdge :: [] ∧
    idleEdge.rst = false ∧ hostStable idleEdge { State.reset with edges := [idleEdge] } = true ∧
    ({ State.reset with edges := [idleEdge] } : State).phase ≠ .decode ∧ idleEdge.tokValid = false := by decide
theorem witness_unstable : ({ decodeAt 9 0 0 0 0 0 [takeEdge] with held := some 0x0FF } : State).held = some 0x0FF ∧
    ({ decodeAt 9 0 0 0 0 0 [takeEdge] with held := some 0x0FF } : State).edges = takeEdge :: [] ∧
    offer takeEdge ≠ some 0x0FF ∧ takeEdge.rst = false := by decide
theorem witness_unstable_reset : ({ decodeAt 9 0 0 0 0 0 [resetEdge] with held := some 0x0FF } : State).edges = resetEdge :: [] ∧
    offer resetEdge ≠ some 0x0FF ∧ resetEdge.rst = true := by decide
/-- One frame with a legal header, all-zero residuals. -/
theorem witness_stream : ∃ s : State, s.phase ≠ .decode ∧ s.held = none ∧
    (∀ f ∈ [((0x3F : Byte), (Vector.replicate 14 0 : Vector Byte 14))], f.1.toNat < 64) ∧
    s.edges = playTokens (tokWord 1 0 ::
      dataWords ([((0x3F : Byte), (Vector.replicate 14 0 : Vector Byte 14))].flatMap fun f => f.1 :: f.2.toList) ++ [tokWord 2 0]) :=
  ⟨{ State.reset with edges := playTokens (tokWord 1 0 ::
      dataWords ([((0x3F : Byte), (Vector.replicate 14 0 : Vector Byte 14))].flatMap fun f => f.1 :: f.2.toList) ++ [tokWord 2 0]) },
    by decide, rfl, by decide, rfl⟩

/-- The edge's event in this state, and that the step answers a next state. -/
def hasEvent (s : State) (ev : Event) : Bool :=
  match s.edges with
  | e :: _ => eventOf e s == ev && nextWith (step s) (fun _ => true)
  | [] => false

/-- Each event of the transition table (R128) occurs. -/
theorem witness_events : hasEvent { acceptAt 13 0 with edges := [offerEdge 0x000] } .dataEarly = true ∧
    hasEvent { acceptAt 14 0x3F with edges := [offerEdge 0x000] } .dataLastValid = true ∧
    hasEvent { acceptAt 14 0x40 with edges := [offerEdge 0x000] } .dataLastInvalid = true ∧
    hasEvent { acceptAt 0 0 with edges := [offerEdge 0x100] } .clear = true ∧
    hasEvent { acceptAt 0 0 with edges := [offerEdge 0x200] } .endBoundary = true ∧
    hasEvent { acceptAt 1 0 with edges := [offerEdge 0x200] } .endInside = true ∧
    hasEvent { acceptAt 0 0 with edges := [offerEdge 0x300] } .rsvd = true := by decide
theorem witness_events_more : hasEvent (decodeAt 26 0 0 0 0 0 [takeEdge]) .sampleEarly = true ∧
    hasEvent (decodeAt 27 0 0 0 0 0 [takeEdge]) .sampleLast = true ∧ hasEvent (errorAt [offerEdge 0x100]) .clear = true ∧
    hasEvent (errorAt [offerEdge 0x200]) .errorDiscard = true ∧ hasEvent (decodeAt 9 0 0 0 0 0 [resetEdge]) .reset = true ∧
    hasEvent (decodeAt 9 0 0 0 0 0 [idleEdge]) .noTransfer = true := by decide
/-- The three error entries (R101), each from ACCEPT by a step. -/
theorem witness_errorEntries :
    nextWith (step { acceptAt 1 0 with edges := [offerEdge 0x200] }) (fun t => t.phase == .error && errCode t.errKind == 1) = true ∧
    nextWith (step { acceptAt 14 0x40 with edges := [offerEdge 0x000] }) (fun t => t.phase == .error && errCode t.errKind == 2) = true ∧
    nextWith (step { acceptAt 0 0 with edges := [offerEdge 0x300] }) (fun t => t.phase == .error && errCode t.errKind == 3) = true := by
  decide
/-- ERROR is kept by a discarded token, and left by CLEAR and by reset. -/
theorem witness_leaveError : nextWith (step (errorAt [offerEdge 0x233])) (fun t => t.phase == .error) = true ∧
    nextWith (step (errorAt [offerEdge 0x100])) (fun t => t.phase == .accept) = true ∧
    nextWith (step (errorAt [resetEdge])) (fun t => t.phase == .accept) = true := by decide
/-- A reached error state: RSVD as the first token. -/
theorem witness_reachedError : ∃ s : State, Reachable s ∧ s.phase = .error :=
  ⟨_, .step (.reset 32 [offerEdge 0x35A]) rfl, rfl⟩
/-- A reached state in which the run has succeeded: END as the first token. -/
theorem witness_succeeded : ∃ s : State, Reachable s ∧ runSucceeded s :=
  ⟨_, .step (.reset 32 [offerEdge 0x200]) rfl, ⟨by decide, rfl, fun _ h => nomatch h⟩, rfl, rfl⟩
/-- R98, R125: after a retire a token held over from DECODE is still offered, so the run has not ended. -/
theorem test_heldToken_notEnded : nextWith (step (decodeAt 27 0 0 0 0 0 [⟨false, true, 1, 0, true⟩]))
    (fun t => t.phase == .accept && t.held == some 0x100 && t.edges.isEmpty) = true ∧
    ¬ runEnded { State.reset with held := some 0x100 } := ⟨by decide, fun h => nomatch h.2.1⟩
/-- An ended run with edges ahead on which the host offers nothing. -/
theorem witness_ended : runEnded { State.reset with edges := [takeEdge, idleEdge] } ∧
    ∀ e ∈ ({ State.reset with edges := [takeEdge, idleEdge] } : State).edges, e.rst = false :=
  ⟨⟨by decide, rfl, by decide⟩, by decide⟩
/-- Steps that change the history: a sample, a CLEAR, a reset. -/
theorem witness_historyWriters : nextWith (step (decodeAt 0 0 0 0 0 0xF0 [takeEdge])) (fun t => t.h1 != 0) = true ∧
    nextWith (step { errorAt [offerEdge 0x100] with h1 := 5 }) (fun t => t.h1 != 5) = true ∧
    nextWith (step { errorAt [resetEdge] with h1 := 5 }) (fun t => t.h1 != 5) = true := by decide
/-- Steps that change frame_count: retire, CLEAR, reset. -/
theorem witness_frameCountWriters : nextWith (step (decodeAt 27 0 0 0 0 0 [takeEdge])) (fun t => t.frameCount != 0) = true ∧
    nextWith (step { errorAt [offerEdge 0x100] with frameCount := 5 }) (fun t => t.frameCount != 5) = true ∧
    nextWith (step { errorAt [resetEdge] with frameCount := 5 }) (fun t => t.frameCount != 5) = true := by decide
/-- Steps that change done: END sets it; DATA, an error, CLEAR and reset clear it. -/
theorem witness_doneWriters : nextWith (step { acceptAt 0 0 with edges := [offerEdge 0x200] }) (fun t => t.done) = true ∧
    nextWith (step { acceptAt 0 0 with done := true, edges := [offerEdge 0x03C] }) (fun t => !t.done) = true ∧
    nextWith (step { acceptAt 0 0 with done := true, edges := [offerEdge 0x300] }) (fun t => !t.done) = true ∧
    nextWith (step { acceptAt 0 0 with done := true, edges := [offerEdge 0x100] }) (fun t => !t.done) = true ∧
    nextWith (step { acceptAt 0 0 with done := true, edges := [resetEdge] }) (fun t => !t.done) = true := by decide
theorem witness_latchHolds : (decodeAt 9 2 3 0 0 7 [takeEdge]).edges = takeEdge :: [] ∧ takeEdge.rst = false ∧
    (decodeAt 9 2 3 0 0 7 [takeEdge]).phase = .decode ∧ ∃ t, step (decodeAt 9 2 3 0 0 7 [takeEdge]) = .next t :=
  ⟨rfl, rfl, rfl, ⟨_, rfl⟩⟩
theorem witness_status : (errorAt []).errKind ≠ .none ∧ State.reset.errKind = .none ∧ State.reset.phase ≠ .decode := by decide
theorem witness_outputBytes : ([0, 5] : List Sample)[0]? = some 0 ∧ ([0, 5] : List Sample)[1]? = some 5 := by decide
theorem witness_frameLength : (List.replicate 15 (0 : Byte)).length = 15 ∧ (List.replicate 14 (0 : Byte)).length ≠ 15 := by decide
theorem witness_resetStep : (decodeAt 9 0 0 0 0 0 [⟨true, true, 0, 1, true⟩]).edges = ⟨true, true, 0, 1, true⟩ :: [] := by decide
/-- For a step that runs the decoded instruction: a token taken, a nibble to decode, and byte 14. -/
theorem witness_stepRuns : ({ acceptAt 0 0 with edges := [offerEdge 0x03C] } : State).edges = offerEdge 0x03C :: [] ∧
    (offerEdge 0x03C).rst = false ∧ hostStable (offerEdge 0x03C) { acceptAt 0 0 with edges := [offerEdge 0x03C] } = true ∧
    (acceptAt 0 0).phase ≠ .decode ∧ (offerEdge 0x03C).tokValid = true ∧ nibbleAt (decodeAt 27 0 0 0 0 0x5E []) = some 0xE ∧
    (acceptAt 14 0).phase = .accept ∧ (acceptAt 14 0).pos = 14 := by decide
theorem witness_invariant : StateInvariant State.reset ∧ StreamInvariant State.reset ∧ ∃ t, step State.reset = .next t :=
  ⟨⟨by decide, by decide, by decide, by decide, by decide, by decide, by decide, by decide, by decide⟩,
    ⟨by decide, by decide, by decide, by decide⟩, ⟨_, rfl⟩⟩
theorem witness_reachable : Reachable { State.reset with frameCntW := 1, edges := [takeEdge] } := .reset 1 [takeEdge]

end Sys2Proof.Tests
end

/-! SUPPORT. The invariant of spec/10_state.md R31 and who writes the history, the frame counter and done. An invariant lemma for
each operation, the effect of a token and of a step taken from Laws/Ops.lean, and the statements of the state's family. -/

namespace Sys2Proof.Machine

/-! ### The codes of the error kinds (R101) -/

theorem errCode_inj {a b : ErrKind} : errCode a = errCode b ↔ a = b := by
  cases a <;> cases b <;> decide

theorem errCode_eq_zero {e : ErrKind} : errCode e = 0 ↔ e = .none := errCode_inj (b := .none)

/-! ### Which steps fault, and which answer a next state -/

theorem nibbleAt_eq_none {s : State} (hk : 28 ≤ s.k.toNat) : nibbleAt s = none := by
  rw [← Option.not_isSome_iff_eq_none, nibbleAt_isSome]
  omega

/-- The fault of I12 on a byte captured at pos = 15. -/
theorem captureByte_illegalPos (b : Byte) {s : State} (hpos : s.pos = 15) : captureByte b s = .fault .illegalPos := by
  simp [captureByte, hpos]

theorem captureByte_next (b : Byte) {s : State} (hpos : s.pos.toNat ≤ 14) : ∃ t, captureByte b s = .next t := by
  rcases captureByte_cases b s with ⟨_, hc⟩ | ⟨_, hc⟩ | ⟨h15, _⟩
  · exact ⟨_, hc⟩
  · rw [hc, runHeader_eq]
    split <;> exact ⟨_, rfl⟩
  · simp [h15] at hpos

theorem exec_data_accept (b : Byte) {s : State} (hp : s.phase = .accept) : exec (.data b) s = captureByte b s := by
  simp [exec, execData, hp]

theorem exec_res_accept (hi lo : Nibble) {s : State} (hp : s.phase = .accept) :
    exec (.res hi lo) s = captureByte (hi ++ lo) s := by
  simp [exec, execRes, hp]

theorem exec_res_illegalK (hi lo : Nibble) {s : State} (hp : s.phase = .decode) (hk : 28 ≤ s.k.toNat) :
    exec (.res hi lo) s = .fault .illegalK := by
  simp [exec, execRes, hp, Nat.not_lt.mpr hk]

theorem execData_next (b : Byte) {s : State} (hpos : s.pos.toNat ≤ 14) : ∃ t, execData b s = .next t := by
  cases hp : s.phase
  · simpa [execData, hp] using captureByte_next b hpos
  · simp [execData, hp]
  · simp [execData, hp]

theorem execClear_next (d : Byte) (s : State) : ∃ t, execClear d s = .next t := by
  cases hp : s.phase <;> simp [execClear, hp]

theorem execEndTok_next (d : Byte) (s : State) : ∃ t, execEndTok d s = .next t := by
  cases hp : s.phase
  · simp only [execEndTok, hp]
    split <;> exact ⟨_, rfl⟩
  · simp [execEndTok, hp]
  · simp [execEndTok, hp]

theorem execRsvd_next (d : Byte) (s : State) : ∃ t, execRsvd d s = .next t := by
  cases hp : s.phase <;> simp [execRsvd, hp]

/-- A token word answers a next state in every phase, but for a byte captured at pos = 15 (R17, I12). -/
theorem exec_tok_next (w : TokenWord) {s : State} (hpos : s.pos.toNat ≤ 14) : ∃ t, exec (decode (.tok w)) s = .next t := by
  simp only [decode, decodeTok]
  split_ifs
  · exact execData_next (tokData w) hpos
  · exact execClear_next (tokData w) s
  · exact execEndTok_next (tokData w) s
  · exact execRsvd_next (tokData w) s

/-- The sample step answers a next state for every k that is held (R18). -/
theorem sampleTransfer_next {s : State} (hk : s.k.toNat ≤ 27) : ∃ t, sampleTransfer s = .next t := by
  obtain ⟨n, hn⟩ := Option.isSome_iff_exists.mp ((nibbleAt_isSome s).mpr (by omega))
  exact ⟨_, sampleTransfer_some hn⟩

theorem handshake_next (e : Edge) {s : State} (hpos : s.pos.toNat ≤ 14) (hk : s.k.toNat ≤ 27) :
    ∃ t, handshake e s = .next t := by
  by_cases hp : s.phase = .decode
  · rw [handshake_decode hp]
    split
    · exact sampleTransfer_next (s := setHeld (offer e) s) hk
    · exact ⟨_, rfl⟩
  · rw [handshake_taking hp]
    split
    · exact exec_tok_next _ (s := setHeld none s) hpos
    · exact ⟨_, rfl⟩

/-! ### Who writes the history, the frame counter and done -/

/-- The command of a token word offered at an edge is the edge's. -/
theorem offer_cmd {e : Edge} {w : TokenWord} (h : offer e = some w) : e.tokValid = true ∧ tokCmd w = e.tokCmd := by
  obtain ⟨hv, rfl⟩ := offer_some h
  exact ⟨hv, tokCmd_tokWord _ _⟩

/-- Of the tokens only CLEAR writes the history and the frame counter (R72, R88, R112). -/
theorem TokenEffect.cleared_or_keeps {w : TokenWord} {s t : State} (ht : TokenEffect w s t) :
    (tokCmd w = 1 ∧ t = clearStream s) ∨
      (t.h1 = s.h1 ∧ t.h2 = s.h2 ∧ t.frameCount = s.frameCount ∧ t.frameCntW = s.frameCntW) := by
  cases ht with
  | cleared hc hp => exact .inl ⟨hc, rfl⟩
  | _ => exact .inr ⟨rfl, rfl, rfl, rfl⟩

/-- What each token does to done (R22). -/
theorem TokenEffect.done_writers {w : TokenWord} {s t : State} (ht : TokenEffect w s t) :
    t.done = s.done ∨
      (t.done = true ∧ s.phase = .accept ∧ s.pos = 0 ∧ tokCmd w = 2) ∨
      (t.done = false ∧ ((s.phase = .accept ∧ (tokCmd w = 0 ∨ t.phase = .error)) ∨ tokCmd w = 1)) := by
  cases ht with
  | captured hc hp i hi h14 => exact .inr (.inr ⟨rfl, .inl ⟨hp, .inl hc⟩⟩)
  | frameValid hc hp h14 hlegal => exact .inr (.inr ⟨rfl, .inl ⟨hp, .inl hc⟩⟩)
  | frameInvalid hc hp h14 hlegal => exact .inr (.inr ⟨rfl, .inl ⟨hp, .inl hc⟩⟩)
  | cleared hc hp => exact .inr (.inr ⟨rfl, .inr hc⟩)
  | ended hc hp h0 => exact .inr (.inl ⟨rfl, hp, h0, hc⟩)
  | truncated hc hp h0 => exact .inr (.inr ⟨rfl, .inl ⟨hp, .inr rfl⟩⟩)
  | reserved hc hp => exact .inr (.inr ⟨rfl, .inl ⟨hp, .inr rfl⟩⟩)
  | discarded hc hp => exact .inl rfl

/-- A sample step leaves the frame counter, or is the one at k = 27, which retires (R83). -/
theorem sampleStep_frameCount (n : Nibble) {s : State} (hk : s.k.toNat < 28) :
    (sampleStep n s).frameCount = s.frameCount ∨
      (s.k.toNat = 27 ∧ (sampleStep n s).phase = .accept ∧
        (sampleStep n s).frameCount = (s.frameCount + 1) % 2 ^ s.frameCntW) := by
  by_cases h27 : s.k.toNat < 27
  · exact .inl (by simp [sampleStep_early h27, sampleOp_eq])
  · exact .inr ⟨by omega, by simp [sampleStep_last h27], by simp [sampleStep_last h27, sampleOp_eq, wrapU]⟩

end Sys2Proof.Machine

namespace Sys2Proof.Safety

open Sys2Proof.Machine

/-! ### The operations keep the invariant of R31 -/

/-- What reset and CLEAR have in common: a state with every item of R31 at its reset value meets the invariant. -/
theorem stateInvariant_of_fresh {s : State} (hp : s.phase = .accept) (hpos : s.pos = 0) (hk : s.k = 0)
    (hf : s.frameCount = 0) (hd : s.done = false) (hK : s.errKind = .none) (hF : s.errFrame = 0) (hI : s.errInfo = 0) :
    StateInvariant s := by
  have hw : 0 < 2 ^ s.frameCntW := Nat.two_pow_pos _
  constructor <;> simp [*]

theorem stateInvariant_reset (w : Nat) (es : List Edge) : StateInvariant { State.reset with frameCntW := w, edges := es } :=
  stateInvariant_of_fresh rfl rfl rfl rfl rfl rfl rfl rfl

theorem stateInvariant_resetStep (s : State) : StateInvariant (resetStep s) :=
  stateInvariant_of_fresh rfl rfl rfl rfl rfl rfl rfl rfl

theorem stateInvariant_clearStream (s : State) : StateInvariant (clearStream s) :=
  stateInvariant_of_fresh rfl rfl rfl rfl rfl rfl rfl rfl

/-- The host's list and the token it holds are no part of R31. -/
theorem stateInvariant_setHeld_consumeEdge {s : State} (h : StateInvariant s) (o : Option TokenWord) (rest : List Edge) :
    StateInvariant (setHeld o (consumeEdge rest s)) := { h with }

/-- Error entry (R106) needs only that the frame number it records fits. -/
theorem stateInvariant_errorEntry {s : State} {e : ErrKind} (he : e ≠ .none) (info : Byte)
    (hf : s.frameCount < 2 ^ s.frameCntW) : StateInvariant (errorEntry e info s) := by
  constructor <;> simp [*]

section

variable {s : State} (h : StateInvariant s)
include h

theorem StateInvariant.errKind_none (hp : s.phase ≠ .error) : s.errKind = .none :=
  of_not_not (mt h.error_iff.mpr hp)

/-- A byte captured below pos = 14 (R76). -/
theorem StateInvariant.keeps_capture (hp : s.phase = .accept) (h14 : s.pos.toNat < 14) (i : Fin 15) (b : Byte) :
    StateInvariant (setPos (s.pos + 1) (writeByte i b s)) where
  error_iff := h.error_iff
  pos_zero := by simp [hp]
  k_zero := h.k_zero
  done_boundary := by simp
  pos_le := by simp [BitVec.toNat_add]; omega
  k_le := h.k_le
  no_error_zero := h.no_error_zero
  frameCount_lt := h.frameCount_lt
  errFrame_lt := h.errFrame_lt

/-- Byte 14 of a frame with a legal header: pos is 0 and done is clear when the latch starts DECODE (R77, R78). -/
theorem StateInvariant.keeps_completeFrame (hp : s.phase = .accept) (t : BitVec 2) (m : Nibble) (i : Fin 15) (b : Byte) :
    StateInvariant (headerValid t m (setPos 0 (writeByte i b s))) where
  error_iff := by simp [h.errKind_none (by simp [hp])]
  pos_zero := by simp
  k_zero := by simp
  done_boundary := by simp
  pos_le := by simp
  k_le := by simp
  no_error_zero := h.no_error_zero
  frameCount_lt := h.frameCount_lt
  errFrame_lt := h.errFrame_lt

/-- END at a frame boundary is where done may be 1 (R22, R89). -/
theorem StateInvariant.keeps_markDone (hp : s.phase = .accept) (hpos : s.pos = 0) : StateInvariant (markDone s) :=
  { h with done_boundary := fun _ => ⟨hp, hpos⟩ }

/-- A sample step keeps k in range and, when it retires, comes back to a frame boundary with the count reduced (R80, R83). -/
theorem StateInvariant.keeps_sampleStep (hp : s.phase = .decode) (n : Nibble) : StateInvariant (sampleStep n s) := by
  have hpos : s.pos = 0 := h.pos_zero (.inl hp)
  have hd : s.done = false := by
    by_contra hd
    simpa [hp] using (h.done_boundary (by simpa using hd)).1
  have hK : s.errKind = .none := h.errKind_none (by simp [hp])
  obtain ⟨hF, hI⟩ := h.no_error_zero hK
  have hw : 0 < 2 ^ s.frameCntW := Nat.two_pow_pos _
  by_cases hk : s.k.toNat < 27
  · have hk' : (s.k.toNat + 1) % 32 ≤ 27 := by omega
    rw [sampleStep_early hk]
    constructor <;> simp [sampleOp_eq, h.frameCount_lt, *]
  · rw [sampleStep_last hk]
    constructor <;> simp [sampleOp_eq, wrapU, Nat.mod_lt, *]

/-- A token taken outside DECODE keeps the invariant. -/
theorem StateInvariant.keeps_token {w : TokenWord} {t : State} (ht : TokenEffect w s t) : StateInvariant t := by
  cases ht with
  | captured hc hp i hi h14 => exact h.keeps_capture hp h14 i _
  | frameValid hc hp h14 hlegal => exact h.keeps_completeFrame hp _ _ _ _
  | frameInvalid hc hp h14 hlegal => exact stateInvariant_errorEntry (by decide) _ h.frameCount_lt
  | cleared hc hp => exact stateInvariant_clearStream s
  | ended hc hp h0 => exact h.keeps_markDone hp h0
  | truncated hc hp h0 => exact stateInvariant_errorEntry (by decide) _ h.frameCount_lt
  | reserved hc hp => exact stateInvariant_errorEntry (by decide) _ h.frameCount_lt
  | discarded hc hp => exact h

/-- A step keeps the invariant, whatever the edge does. -/
theorem StateInvariant.keeps_step {t : State} (hst : step s = .next t) : StateInvariant t := by
  cases step_effect hst with
  | noEdge he => exact h
  | reset e rest he hr => exact stateInvariant_resetStep _
  | noToken e rest he hr hp ho => exact stateInvariant_setHeld_consumeEdge h _ _
  | token e rest w t he hr hp ho hx ht => exact (stateInvariant_setHeld_consumeEdge h _ _).keeps_token ht
  | held e rest he hr hp hs => exact stateInvariant_setHeld_consumeEdge h _ _
  | sample e rest n he hr hp hs hn => exact (stateInvariant_setHeld_consumeEdge h _ _).keeps_sampleStep hp n

end

/-- The invariant of R31 in every state reached from reset. -/
theorem Reachable.stateInvariant {s : State} (hs : Reachable s) : StateInvariant s := by
  induction hs with
  | reset w es => exact stateInvariant_reset w es
  | step _ hst ih => exact ih.keeps_step hst

/-- At reset no sample has been transferred, and the history is zero (R86, R116). -/
theorem streamInvariant_reset (w : Nat) (es : List Edge) : StreamInvariant { State.reset with frameCntW := w, edges := es } where
  h1_last := rfl
  h2_second := rfl
  count := by simp [State.reset]
  err_frame := by simp [State.reset]

/-- From the invariant a step answers a next state, or refuses a host that breaks its duty (R125). -/
theorem StateInvariant.step_next_or_refused {s : State} (h : StateInvariant s) :
    (∃ t, step s = .next t) ∨
      ∃ (e : Edge) (rest : List Edge), s.edges = e :: rest ∧ e.rst = false ∧ hostStable e s = false ∧
        step s = .refused .hostUnstable := by
  cases he : s.edges with
  | nil => exact .inl ⟨s, by simp [step, nextEdge, he]⟩
  | cons e rest =>
    cases hr : e.rst with
    | true => exact .inl ⟨_, by rw [step_edge he, edgeStep, if_pos hr]⟩
    | false =>
      cases hs : hostStable e s with
      | true =>
        rw [step_live he hr hs]
        exact .inl (handshake_next e (s := consumeEdge rest s) h.pos_le h.k_le)
      | false => exact .inr ⟨e, rest, rfl, hr, hs, by simp [step_edge he, edgeStep, hr, hs]⟩

/-! ### The statements -/

/-- Settles O53: each operation keeps the items of R31, and a step is one of the effects of `step_effect`. -/
theorem stepKeepsStateInvariant : Obligations.StepKeepsStateInvariant := fun _ _ h hst => h.keeps_step hst

/-- Settles O41: of the step's effects only a sample transfer, CLEAR and reset touch h1 or h2. -/
theorem historyWriters : Obligations.HistoryWriters := by
  intro s t hst hne
  have same {u : State} (h1 : u.h1 = s.h1) (h2 : u.h2 = s.h2) : ¬ (u.h1 ≠ s.h1 ∨ u.h2 ≠ s.h2) := by simp [h1, h2]
  cases step_effect hst with
  | noEdge he => exact absurd hne (same rfl rfl)
  | reset e rest he hr => exact .inr ⟨rfl, rfl, rfl, e, rest, he, .inl hr⟩
  | noToken e rest he hr hp ho => exact absurd hne (same rfl rfl)
  | token e rest w t he hr hp ho hx ht =>
    obtain ⟨hv, hcmd⟩ := offer_cmd ho
    rcases ht.cleared_or_keeps with ⟨hc, rfl⟩ | ⟨h1, h2, -, -⟩
    · exact .inr ⟨rfl, rfl, rfl, e, rest, he, .inr ⟨hp, hv, hcmd ▸ hc⟩⟩
    · exact absurd hne (same h1 h2)
  | held e rest he hr hp hs => exact absurd hne (same rfl rfl)
  | sample e rest n he hr hp hs hn =>
    obtain ⟨h1, h2, hstream⟩ := sampleStep_written n (setHeld (offer e) (consumeEdge rest s))
    exact .inl ⟨hp, h2, by simp [h1, sampleAt, hn], by simp [h1, hstream]⟩

/-- Settles O42: the retiring sample step, CLEAR and reset are the only effects that write the counter. -/
theorem frameCountWriters : Obligations.FrameCountWriters := by
  intro s t hst
  cases step_effect hst with
  | noEdge he => exact ⟨rfl, .inl rfl⟩
  | reset e rest he hr => exact ⟨rfl, .inr (.inr ⟨rfl, e, rest, he, .inl hr⟩)⟩
  | noToken e rest he hr hp ho => exact ⟨rfl, .inl rfl⟩
  | token e rest w t he hr hp ho hx ht =>
    obtain ⟨hv, hcmd⟩ := offer_cmd ho
    rcases ht.cleared_or_keeps with ⟨hc, rfl⟩ | ⟨-, -, hf, hw⟩
    · exact ⟨rfl, .inr (.inr ⟨rfl, e, rest, he, .inr ⟨hp, hv, hcmd ▸ hc⟩⟩)⟩
    · exact ⟨hw, .inl hf⟩
  | held e rest he hr hp hs => exact ⟨rfl, .inl rfl⟩
  | sample e rest n he hr hp hs hn =>
    have hw := sampleStep_frame n (setHeld (offer e) (consumeEdge rest s))
    refine ⟨by simp [hw], ?_⟩
    rcases sampleStep_frameCount n (s := setHeld (offer e) (consumeEdge rest s)) (nibbleAt_lt hn) with hf | ⟨hk, hacc, hf⟩
    · exact .inl hf
    · exact .inr (.inl ⟨hp, hk, hacc, hf⟩)

/-- Settles O43: of the step's effects only a token and a reset write done. -/
theorem doneWriters : Obligations.DoneWriters := by
  intro s t hst hne
  cases step_effect hst with
  | noEdge he => exact absurd rfl hne
  | reset e rest he hr => exact ⟨e, rest, he, .inr ⟨rfl, .inl hr⟩⟩
  | noToken e rest he hr hp ho => exact absurd rfl hne
  | token e rest w t he hr hp ho hx ht =>
    obtain ⟨hv, hcmd⟩ := offer_cmd ho
    refine ⟨e, rest, he, ?_⟩
    rcases hcmd ▸ ht.done_writers with hsame | ⟨hd, hacc, hpos, hc⟩ | ⟨hd, ⟨hacc, hc⟩ | hc⟩
    · exact absurd hsame hne
    · exact .inl ⟨hd, hr, hacc, hpos, hv, hc⟩
    · exact .inr ⟨hd, .inr (.inl ⟨hacc, hv, hc⟩)⟩
    · exact .inr ⟨hd, .inr (.inr ⟨hp, hv, hc⟩)⟩
  | held e rest he hr hp hs => exact absurd rfl hne
  | sample e rest n he hr hp hs hn =>
    exact absurd (by simp [sampleStep_frame n (setHeld (offer e) (consumeEdge rest s))]) hne

/-- Settles O55: the only stop from the invariant is the refusal of an unstable host, which the second clause excludes. -/
theorem noFaultFromInvariant : Obligations.NoFaultFromInvariant := by
  intro s h
  rcases h.step_next_or_refused with ⟨t, ht⟩ | ⟨e, rest, he, hr, hs, href⟩
  · exact ⟨by simp [ht], fun _ => ⟨t, ht⟩⟩
  · exact ⟨by simp [href], fun hduty => absurd (hduty e rest he) (by simp [hr, hs])⟩

/-- Settles O56: the items of R31 from the invariant of every reached state, its error kind read by code (R101). -/
theorem reachableStatesMeetInvariants : Obligations.ReachableStatesMeetInvariants := by
  intro s hs
  have h := Reachable.stateInvariant hs
  refine ⟨?_, h.pos_zero, h.k_zero, h.done_boundary, ⟨h.pos_le, h.k_le⟩, ?_⟩
  · rw [ne_eq, errCode_eq_zero]
    exact h.error_iff
  · rw [errCode_eq_zero]
    exact h.no_error_zero

/-- Settles O14, row by row of the four. -/
theorem coefficientTable : Obligations.CoefficientTable := by
  unfold Obligations.CoefficientTable
  decide

/-- Settles O18: the byte capture's case pos = 15, and no nibble for k of 28 or more. -/
theorem illegalCountersFault : Obligations.IllegalCountersFault := by
  refine ⟨fun _ => nibbleAt_eq_none, fun b s hp hpos => ?_, fun hi lo s hp hpos => ?_, fun hi lo s => exec_res_illegalK hi lo,
    fun e rest s he hr hsmp hs hp hk => ?_⟩
  · rw [exec_data_accept b hp, captureByte_illegalPos b hpos]
  · rw [exec_res_accept hi lo hp, captureByte_illegalPos _ hpos]
  · rw [step_live he hr hs, handshake_decode (s := consumeEdge rest s) hp, if_pos hsmp]
    exact sampleTransfer_none (nibbleAt_eq_none hk)

/-- Settles O31: an idle host leaves the step nothing but the edge itself to record. -/
theorem noTransferChangesNothing : Obligations.NoTransferChangesNothing := by
  refine fun e rest s => ⟨fun he => by simp [step, nextEdge, he], fun he hr hs hp hv => ?_⟩
  have ho : offer e = none := by simp [offer, hv]
  rw [step_live he hr hs, handshake_taking (s := consumeEdge rest s) hp, ho]
  rfl

/-- Settles O45: the error kind's clauses are the injectivity of its codes. -/
theorem statusOutputsShowState : Obligations.StatusOutputsShowState := by
  intro s
  refine ⟨by simp [statusLevels], rfl, errCode_inj (b := .none), errCode_inj (b := .truncatedInput),
    errCode_inj (b := .invalidPredictorIndex), errCode_inj (b := .reservedToken), fun hK => ?_, fun hK => ?_, rfl, fun hp => ?_⟩
  · simp [statusLevels, hK]
  · simp [statusLevels, hK]
  · simp [statusLevels, hp]

/-- Settles O52: every item of both invariants is at its reset value. -/
theorem invariantsHoldAtReset : Obligations.InvariantsHoldAtReset :=
  fun w es => ⟨stateInvariant_reset w es, streamInvariant_reset w es⟩

end Sys2Proof.Safety

/-! SUPPORT. The output byte stream by its two bytes a sample (spec/10_state.md R38), and the step and the byte capture as exec of
the decoded operation (R41, R77, R80), with the statements of the memory's family. -/

namespace Sys2Proof.Machine

/-! ### A sample's two bytes (R38) -/

theorem sampleLowByte_toNat (x : Sample) : (x.extractLsb' 0 8).toNat = x.toNat % 256 := by
  simp [BitVec.extractLsb'_toNat]

theorem sampleHighByte_toNat (x : Sample) : (x.extractLsb' 8 8).toNat = x.toNat / 256 := by
  simp only [BitVec.extractLsb'_toNat, Nat.shiftRight_eq_div_pow]
  omega

/-- The sign of a sample is the sign of its high byte. -/
theorem sample_toInt_eq_bytes (x : Sample) : x.toInt = (x.extractLsb' 0 8).toNat + 256 * (x.extractLsb' 8 8).toInt := by
  have hlo := sampleLowByte_toNat x
  have hhi := sampleHighByte_toNat x
  rw [BitVec.toInt_eq_toNat_cond, BitVec.toInt_eq_toNat_cond]
  split_ifs <;> omega

/-! ### The output byte stream by index (R38) -/

theorem outputBytes_length (xs : List Sample) : (outputBytes xs).length = 2 * xs.length := by
  induction xs with
  | nil => rfl
  | cons x xs ih =>
    simp [sampleBytes, ih]
    omega

/-- The stream without the bytes of its first j samples is the stream of the others: there is no framing between samples. -/
theorem outputBytes_drop (xs : List Sample) (j : Nat) : (outputBytes xs).drop (2 * j) = outputBytes (xs.drop j) := by
  induction j generalizing xs with
  | zero => rfl
  | succ j ih =>
    cases xs with
    | nil => simp
    | cons x xs => exact ih xs

/-- Sample j gives bytes 2j and 2j + 1. -/
theorem outputBytes_getElem? {xs : List Sample} {j : Nat} {x : Sample} (h : xs[j]? = some x) :
    (outputBytes xs)[2 * j]? = some (x.extractLsb' 0 8) ∧ (outputBytes xs)[2 * j + 1]? = some (x.extractLsb' 8 8) := by
  obtain ⟨hj, rfl⟩ := List.getElem?_eq_some_iff.mp h
  have hbyte (i : Nat) : (outputBytes xs)[2 * j + i]? = (sampleBytes xs[j] ++ outputBytes (xs.drop (j + 1)))[i]? := by
    rw [← List.getElem?_drop, outputBytes_drop, List.drop_eq_getElem_cons hj, outputBytes_cons]
  exact ⟨hbyte 0, hbyte 1⟩

/-! ### The step and the byte capture as exec of the decoded operation (R41, R77, R80) -/

theorem sampleTransfer_exec {s : State} {n : Nibble} (h : nibbleAt s = some n) :
    sampleTransfer s = andThen (exec (decode (.nib n)) s) fun t => .next (finishSample t) := by
  simp only [sampleTransfer, h]

/-- The header row that FrameComplete runs is the one the decoder reads from the byte (R62, R77). -/
theorem exec_decode_hdr (hb : Byte) (s : State) : exec (decode (.hdr hb)) s = runHeader hb s := by
  simp only [decode, decodeHdr, runHeader]
  split_ifs <;> rfl

theorem captureByte_complete (b : Byte) {s : State} (hpos : s.pos = 14) :
    captureByte b s = runHeader s.fbuf[0] (setPos 0 (writeByte 14 b s)) := by
  rcases captureByte_cases b s with ⟨hlt, -⟩ | ⟨-, hc⟩ | ⟨h15, -⟩
  · simp [hpos] at hlt
  · exact hc
  · simp [hpos] at h15

end Sys2Proof.Machine

namespace Sys2Proof.Safety

open Sys2Proof.Machine

/-! ### The statements on the output bytes and on the decoded instruction -/

/-- Settles O59: the samples before sample j fill the first 2j bytes. -/
theorem outputByteStream : Obligations.OutputByteStream := by
  refine fun xs => ⟨outputBytes_length xs, fun x => by simp, fun j x hx => ?_⟩
  obtain ⟨hlo, hhi⟩ := outputBytes_getElem? hx
  exact ⟨_, _, hlo, hhi, sampleLowByte_toNat x, sampleHighByte_toNat x⟩

/-- Settles O46: the unsigned value by division by 256, the signed one by the sign of the high byte. -/
theorem sampleBytesLittleEndian : Obligations.SampleBytesLittleEndian := by
  refine fun x => ⟨_, _, rfl, ?_, sample_toInt_eq_bytes x⟩
  rw [sampleLowByte_toNat, sampleHighByte_toNat, Nat.mod_add_div]

/-- Settles O51: a live edge outside DECODE is a token transfer, in DECODE a sample transfer, and byte 14 runs the header row. -/
theorem stepRunsDecodedInstruction : Obligations.StepRunsDecodedInstruction := by
  refine ⟨fun e rest s he hr hs hp hv => ?_, fun e rest n s he hr hs hp hsmp hn => ?_, fun b s hp hpos => ?_⟩
  · rw [step_live he hr hs, handshake_taking (s := consumeEdge rest s) hp, offer_valid hv]
    rfl
  · rw [step_live he hr hs, handshake_decode (s := consumeEdge rest s) hp, if_pos hsmp]
    exact sampleTransfer_exec hn
  · rw [exec_data_accept b hp, captureByte_complete b hpos, exec_decode_hdr, ← set_eq_setIfInBounds s.fbuf 14 (by decide) b]
    rfl

end Sys2Proof.Safety

/-! SUPPORT. The encoding (spec/30_encoding.md): the fields of a word and the word of its fields, the decoder as the encoder's
two-sided inverse, the rows of the opcode map as disjoint, and the token words of the assembly, with the statements of the
encoding's family. -/

namespace Sys2Proof.Machine

/-! ### A word and its fields (R50, R54, R57) -/

theorem tokWord_tokCmd_tokData (w : TokenWord) : tokWord (tokCmd w) (tokData w) = w := by
  unfold tokWord tokCmd tokData
  rw [BitVec.extractLsb'_append_extractLsb'_eq_extractLsb' (by rfl)]
  simp

theorem tokCmd_toNat (w : TokenWord) : (tokCmd w).toNat = w.toNat / 256 := by
  simp only [tokCmd, BitVec.extractLsb'_toNat, Nat.shiftRight_eq_div_pow]
  omega

theorem tokData_eq_ofNat (w : TokenWord) : tokData w = BitVec.ofNat 8 w.toNat := rfl

/-- The word is `(cmd << 8) | data` (R63). -/
theorem tokWord_eq_shift_or (c : BitVec 2) (d : Byte) : tokWord c d = c.setWidth 10 <<< 8 ||| d.setWidth 10 := by
  rw [tokWord, BitVec.append_def, BitVec.shiftLeftZeroExtend_eq, BitVec.setWidth'_eq]

theorem tokWord_toNat (c : BitVec 2) (d : Byte) : (tokWord c d).toNat = 256 * c.toNat + d.toNat := by
  rw [tokWord, BitVec.toNat_append, ← Nat.shiftLeft_add_eq_or_of_lt d.isLt, Nat.shiftLeft_eq, Nat.mul_comm]

theorem hiNibble_append (hi lo : Nibble) : hiNibble (hi ++ lo) = hi := BitVec.extractLsb'_append_eq_left

theorem loNibble_append (hi lo : Nibble) : loNibble (hi ++ lo) = lo := BitVec.extractLsb'_append_eq_right

/-! ### The command of a token and the table index of a header (R51, R56) -/

theorem cmd_cases : ∀ c : BitVec 2, c = 0 ∨ c = 1 ∨ c = 2 ∨ c = 3 := by decide

/-- The four legal table indices and the ranges of the two illegal-header rows (R56, R62). -/
theorem tableIndex_cases :
    ∀ t : Nibble, t = 0 ∨ t = 1 ∨ t = 2 ∨ t = 3 ∨ (4 ≤ t.toNat ∧ t.toNat ≤ 7) ∨ 8 ≤ t.toNat := by decide

theorem tableIndex_ne_legal : ∀ {t : Nibble}, 4 ≤ t.toNat → t ≠ 0 ∧ t ≠ 1 ∧ t ≠ 2 ∧ t ≠ 3 := by decide

/-! ### The decoder and the encoder are inverse (R51, R62) -/

theorem decode_hdr_append (t m : Nibble) :
    decode (.hdr (t ++ m)) = if t = 0 then .hdrP0 m else if t = 1 then .hdrP1 m else if t = 2 then .hdrP2 m
      else if t = 3 then .hdrP3 m else if t.toNat < 8 then .hdrBad47 t m else .hdrBad8F t m := by
  simp only [decode, decodeHdr, hiNibble_append, loNibble_append]

theorem decode_hdr_illegal {t : Nibble} (m : Nibble) (h : 4 ≤ t.toNat) :
    decode (.hdr (t ++ m)) = if t.toNat < 8 then .hdrBad47 t m else .hdrBad8F t m := by
  obtain ⟨h0, h1, h2, h3⟩ := tableIndex_ne_legal h
  rw [decode_hdr_append, if_neg h0, if_neg h1, if_neg h2, if_neg h3]

/-- A token goes by its command, a header byte by its table index, and the other two formats have one operation each. -/
theorem decode_encode {i : Instr} (hi : i.wellFormed = true) : decode (encode i) = i := by
  cases i with
  | data b => exact decode_tokWord 0 b
  | clear d => exact decode_tokWord 1 d
  | endTok d => exact decode_tokWord 2 d
  | rsvd d => exact decode_tokWord 3 d
  | hdrP0 m => exact decode_hdr_append 0 m
  | hdrP1 m => exact decode_hdr_append 1 m
  | hdrP2 m => exact decode_hdr_append 2 m
  | hdrP3 m => exact decode_hdr_append 3 m
  | hdrBad47 t m =>
    obtain ⟨h4, h7⟩ := of_decide_eq_true hi
    exact (decode_hdr_illegal m h4).trans (if_pos (by omega))
  | hdrBad8F t m =>
    have h8 : 8 ≤ t.toNat := of_decide_eq_true hi
    exact (decode_hdr_illegal m (by omega)).trans (if_neg (by omega))
  | res hi lo => simp only [encode, decode, hiNibble_append, loNibble_append]
  | sample n => rfl

theorem decode_of_encode_eq {i : Instr} {c : Code} (hi : i.wellFormed = true) (h : encode i = c) : decode c = i :=
  h ▸ decode_encode hi

/-- Every word of every format is the word of a well-formed operation. -/
theorem exists_encode_eq (c : Code) : ∃ i : Instr, i.wellFormed = true ∧ encode i = c := by
  cases c with
  | tok w =>
    rw [← tokWord_tokCmd_tokData w]
    rcases cmd_cases (tokCmd w) with h | h | h | h <;> rw [h]
    · exact ⟨.data (tokData w), rfl, rfl⟩
    · exact ⟨.clear (tokData w), rfl, rfl⟩
    · exact ⟨.endTok (tokData w), rfl, rfl⟩
    · exact ⟨.rsvd (tokData w), rfl, rfl⟩
  | hdr b =>
    rw [← hiNibble_append_loNibble b]
    rcases tableIndex_cases (hiNibble b) with h | h | h | h | h | h
    · exact ⟨.hdrP0 (loNibble b), rfl, by rw [h]; rfl⟩
    · exact ⟨.hdrP1 (loNibble b), rfl, by rw [h]; rfl⟩
    · exact ⟨.hdrP2 (loNibble b), rfl, by rw [h]; rfl⟩
    · exact ⟨.hdrP3 (loNibble b), rfl, by rw [h]; rfl⟩
    · exact ⟨.hdrBad47 (hiNibble b) (loNibble b), decide_eq_true h, rfl⟩
    · exact ⟨.hdrBad8F (hiNibble b) (loNibble b), decide_eq_true h, rfl⟩
  | res b => exact ⟨.res (hiNibble b) (loNibble b), rfl, congrArg Code.res (hiNibble_append_loNibble b)⟩
  | nib n => exact ⟨.sample n, rfl, rfl⟩

theorem encode_decode (c : Code) : (decode c).wellFormed = true ∧ encode (decode c) = c := by
  obtain ⟨i, hi, rfl⟩ := exists_encode_eq c
  rw [decode_encode hi]
  exact ⟨hi, rfl⟩

/-- A token's operation from its value: cmd is the quotient by 256, data the rest (R50, R51). -/
theorem decode_tok_of_div {w : TokenWord} {c : BitVec 2} (h : w.toNat / 256 = c.toNat) :
    decode (.tok w) = decode (.tok (tokWord c (BitVec.ofNat 8 w.toNat))) := by
  have hc : tokCmd w = c := BitVec.eq_of_toNat_eq ((tokCmd_toNat w).trans h)
  rw [← hc, ← tokData_eq_ofNat, tokWord_tokCmd_tokData]

/-! ### The rows of the opcode map (R62) -/

/-- The word of a well-formed operation belongs to the row of its mnemonic. -/
theorem rowOfEncoding (i : Instr) : Laws.RowOfEncoding.Statement i := by
  cases i with
  | data b => exact Laws.RowOfEncoding.data b
  | clear d => exact Laws.RowOfEncoding.clear d
  | endTok d => exact Laws.RowOfEncoding.endTok d
  | rsvd d => exact Laws.RowOfEncoding.rsvd d
  | hdrP0 m => exact Laws.RowOfEncoding.hdrP0 m
  | hdrP1 m => exact Laws.RowOfEncoding.hdrP1 m
  | hdrP2 m => exact Laws.RowOfEncoding.hdrP2 m
  | hdrP3 m => exact Laws.RowOfEncoding.hdrP3 m
  | hdrBad47 t m => exact Laws.RowOfEncoding.hdrBad47 t m
  | hdrBad8F t m => exact Laws.RowOfEncoding.hdrBad8F t m
  | res hi lo => exact Laws.RowOfEncoding.res hi lo
  | sample n => exact Laws.RowOfEncoding.sample n

theorem rowCovers_iff {r : OpcodeRow} {c : Code} :
    rowCovers r c = true ↔ r.format = codeFormat c ∧ codeBits c &&& r.mask = r.pattern := by
  simp [rowCovers]

/-- Two rows that a common word belongs to have its format, and their patterns agree on the bits that both rows fix. -/
theorem rows_agree {r r' : OpcodeRow} {c : Code} (h : rowCovers r c = true) (h' : rowCovers r' c = true) :
    r'.format = r.format ∧ r'.pattern &&& r.mask = r.pattern &&& r'.mask := by
  obtain ⟨hf, hp⟩ := rowCovers_iff.mp h
  obtain ⟨hf', hp'⟩ := rowCovers_iff.mp h'
  exact ⟨hf'.trans hf.symm, by rw [← hp, ← hp', Nat.and_right_comm]⟩

/-- Any two rows of a format differ in a bit that both fix. -/
theorem opcodeMap_disjoint : ∀ r ∈ opcodeMap, ∀ r' ∈ opcodeMap,
    r'.format = r.format ∧ r'.pattern &&& r.mask = r.pattern &&& r'.mask → r' = r := by decide

/-! ### The token words of the assembly (R63, R64) -/

theorem tokWord_data (b : Byte) : tokWord 0 b = b.setWidth 10 := by
  rw [tokWord_eq_shift_or]
  exact BitVec.zero_or

theorem dataWords_eq_map_setWidth (bs : List Byte) : dataWords bs = bs.map fun b => b.setWidth 10 :=
  List.map_congr_left fun b _ => tokWord_data b

theorem expandLine_frame {bs : List Byte} (h : bs.length = 15) : expandLine (.frame bs) = .ok (dataWords bs) := if_pos h

end Sys2Proof.Machine

namespace Sys2Proof.Safety

open Sys2Proof.Machine

/-! ### The statements on the encoding -/

/-- Settles O1, operation by operation: each field comes back from the word that the encoder builds of it. -/
theorem decodeOfEncode : Obligations.DecodeOfEncode := fun _ hi => decode_encode hi

/-- Settles O2: every word is an operation's encoding, so the decoder, its left inverse, is its right inverse too. -/
theorem encodeOfDecode : Obligations.EncodeOfDecode := encode_decode

/-- Settles O3: the decoded operation's own row covers the word it encodes to, and no two rows share a word. -/
theorem opcodeRowsCoverOnce : Obligations.OpcodeRowsCoverOnce := by
  intro c
  obtain ⟨hwf, henc⟩ := encode_decode c
  obtain ⟨r, hr, hname, hcov⟩ := rowOfEncoding (decode c) hwf
  rw [henc] at hcov
  exact ⟨r, hr, hcov, hname, fun r' hr' hcov' => opcodeMap_disjoint r hr r' hr' (rows_agree hcov hcov')⟩

/-- Settles O4: the quotient by 256 is the cmd field. -/
theorem tokenDecodesByCommand : Obligations.TokenDecodesByCommand := fun _ =>
  ⟨fun h => (decode_tok_of_div (c := 0) h).trans (decode_tokWord 0 _),
    fun h => (decode_tok_of_div (c := 1) h).trans (decode_tokWord 1 _),
    fun h => (decode_tok_of_div (c := 2) h).trans (decode_tokWord 2 _),
    fun h => (decode_tok_of_div (c := 3) h).trans (decode_tokWord 3 _), tokWord_toNat⟩

/-- Settles O5: each word is the encoding of its operation. -/
theorem specWordsDecode : Obligations.SpecWordsDecode :=
  ⟨decode_of_encode_eq rfl rfl, decode_of_encode_eq rfl rfl, decode_of_encode_eq rfl rfl, decode_of_encode_eq rfl rfl,
    decode_of_encode_eq rfl rfl, decode_of_encode_eq rfl rfl, decode_of_encode_eq rfl rfl, decode_of_encode_eq rfl rfl,
    decode_of_encode_eq rfl rfl⟩

/-- Settles O47: DATA is the byte itself in 10 bits, RSVD sets the two bits of cmd, and a pseudo-instruction is a list of tokens. -/
theorem assemblyExpands : Obligations.AssemblyExpands := by
  refine ⟨fun b => ?_, rfl, rfl, fun b => ?_, fun bs h => ?_, fun bs h => if_neg h, fun b0 bb => ?_, fun bs => ?_, fun bs => ?_⟩
  · rw [expandLine, tokWord_data]
  · rw [expandLine, tokWord_eq_shift_or]
    rfl
  · rw [expandLine_frame h, dataWords_eq_map_setWidth]
  · exact (expandLine_frame rfl).symm
  · rw [expandLine, dataWords_eq_map_setWidth]
  · rw [expandLine, dataWords_eq_map_setWidth]
    rfl

end Sys2Proof.Safety

/-! SUPPORT. The record of the stream (spec/40_sample_datapath.md R72, spec/41_frame_decoder.md R84, R86) along every operation: a
token other than CLEAR leaves it, CLEAR and reset empty it, and a sample step appends one sample to it. -/

namespace Sys2Proof.Safety

open Sys2Proof.Machine

/-! ### The last two samples of a stream -/

@[simp] theorem lastSample_append_singleton (xs : List Sample) (x : Sample) : lastSample (xs ++ [x]) = x := by
  simp [lastSample]

@[simp] theorem secondLastSample_append_singleton (xs : List Sample) (x : Sample) :
    secondLastSample (xs ++ [x]) = lastSample xs := by
  simp [secondLastSample, lastSample]

/-! ### The sample count modulo the frame counter (R84, R93) -/

/-- The frame counter's wrap in samples: reducing the count of frames reduces the count of samples modulo 28 times as much. -/
theorem samples_mul_wrapU (w f : Nat) : 28 * wrapU w f % (28 * 2 ^ w) = 28 * f % (28 * 2 ^ w) := by
  simp only [wrapU, Nat.mul_mod_mul_left, Nat.mod_mod]

/-! ### The operations keep the record -/

/-- A state with the history, the stream and the counters of one that meets the invariant meets it too, if it names its error's
frame. -/
theorem StreamInvariant.of_same {s t : State} (h : StreamInvariant s) (h1 : t.h1 = s.h1) (h2 : t.h2 = s.h2)
    (hx : t.stream = s.stream) (hf : t.frameCount = s.frameCount) (hw : t.frameCntW = s.frameCntW) (hk : t.k = s.k)
    (herr : t.phase = .error → t.errFrame = t.frameCount) : StreamInvariant t where
  h1_last := by rw [h1, hx, h.h1_last]
  h2_second := by rw [h2, hx, h.h2_second]
  count := by rw [hx, hf, hw, hk, h.count]
  err_frame := herr

/-- What reset and CLEAR have in common: an empty stream from zero history (R86, R88, R116). -/
theorem streamInvariant_of_fresh {s : State} (h1 : s.h1 = 0) (h2 : s.h2 = 0) (hx : s.stream = []) (hf : s.frameCount = 0)
    (hk : s.k = 0) (hp : s.phase = .accept) : StreamInvariant s where
  h1_last := by rw [h1, hx]; rfl
  h2_second := by rw [h2, hx]; rfl
  count := by simp [hx, hf, hk]
  err_frame := by simp [hp]

theorem streamInvariant_resetStep (s : State) : StreamInvariant (resetStep s) :=
  streamInvariant_of_fresh rfl rfl rfl rfl rfl rfl

theorem streamInvariant_clearStream (s : State) : StreamInvariant (clearStream s) :=
  streamInvariant_of_fresh rfl rfl rfl rfl rfl rfl

section

variable {s : State} (h : StreamInvariant s)
include h

/-- The host's list and the token it holds are no part of the record. -/
theorem StreamInvariant.keeps_setHeld_consumeEdge (o : Option TokenWord) (rest : List Edge) :
    StreamInvariant (setHeld o (consumeEdge rest s)) :=
  h.of_same rfl rfl rfl rfl rfl rfl h.err_frame

/-- Error entry records the frame in progress (R106); outside DECODE k is 0 already. -/
theorem StreamInvariant.keeps_errorEntry (hk : s.k = 0) (e : ErrKind) (info : Byte) : StreamInvariant (errorEntry e info s) :=
  h.of_same rfl rfl rfl rfl rfl hk.symm fun _ => rfl

/-- A token taken outside DECODE keeps the record: it transfers no sample, and only CLEAR writes the history (R72, R88). -/
theorem StreamInvariant.keeps_token (hk : s.k = 0) {w : TokenWord} {t : State} (ht : TokenEffect w s t) :
    StreamInvariant t := by
  cases ht with
  | captured hc hp i hi h14 => exact h.of_same rfl rfl rfl rfl rfl rfl h.err_frame
  | frameValid hc hp h14 hlegal => exact h.of_same rfl rfl rfl rfl rfl hk.symm (by simp)
  | frameInvalid hc hp h14 hlegal => exact h.of_same rfl rfl rfl rfl rfl hk.symm fun _ => rfl
  | cleared hc hp => exact streamInvariant_clearStream s
  | ended hc hp h0 => exact h.of_same rfl rfl rfl rfl rfl rfl h.err_frame
  | truncated hc hp h0 => exact h.keeps_errorEntry hk _ _
  | reserved hc hp => exact h.keeps_errorEntry hk _ _
  | discarded hc hp => exact h

/-- The sample count after a sample step: k moves on with it, or the frame retires with its 28th sample (R80, R83). -/
theorem StreamInvariant.sampleStep_count (n : Nibble) (hk : s.k.toNat < 28) :
    (s.stream.length + 1) % (28 * 2 ^ s.frameCntW) =
      (28 * (sampleStep n s).frameCount + (sampleStep n s).k.toNat) % (28 * 2 ^ s.frameCntW) := by
  have hnext : (s.stream.length + 1) % (28 * 2 ^ s.frameCntW) =
      (28 * s.frameCount + (s.k.toNat + 1)) % (28 * 2 ^ s.frameCntW) := Nat.ModEq.add_right 1 h.count
  by_cases h27 : s.k.toNat < 27
  · have hk' : (s.k.toNat + 1) % 32 = s.k.toNat + 1 := Nat.mod_eq_of_lt (by omega)
    simpa [sampleStep_early h27, sampleOp_eq, hk'] using hnext
  · have hlast : s.k.toNat = 27 := by omega
    rw [hnext, hlast, sampleStep_last h27]
    exact (samples_mul_wrapU s.frameCntW (s.frameCount + 1)).symm

/-- A sample step shifts into the history the sample that it appends to the stream (R72, R80, R95). -/
theorem StreamInvariant.keeps_sampleStep (hp : s.phase = .decode) (n : Nibble) (hk : s.k.toNat < 28) :
    StreamInvariant (sampleStep n s) := by
  obtain ⟨h1, h2, hx⟩ := sampleStep_written n s
  have hw : (sampleStep n s).frameCntW = s.frameCntW := by simp [sampleStep_frame n s]
  constructor
  case h1_last => rw [h1, hx, lastSample_append_singleton]
  case h2_second => rw [h2, hx, secondLastSample_append_singleton, h.h1_last]
  case count =>
    rw [hx, hw, List.length_append, List.length_singleton]
    exact h.sampleStep_count n hk
  case err_frame =>
    intro herr
    by_cases h27 : s.k.toNat < 27
    · simp [sampleStep_early h27, sampleOp_eq, hp] at herr
    · simp [sampleStep_last h27] at herr

/-- A step keeps the record, whatever the edge does. -/
theorem StreamInvariant.keeps_step (hinv : StateInvariant s) {t : State} (hst : step s = .next t) : StreamInvariant t := by
  cases step_effect hst with
  | noEdge he => exact h
  | reset e rest he hr => exact streamInvariant_resetStep _
  | noToken e rest he hr hp ho => exact h.keeps_setHeld_consumeEdge _ _
  | token e rest w t he hr hp ho hx ht => exact (h.keeps_setHeld_consumeEdge _ _).keeps_token (hinv.k_zero hp) ht
  | held e rest he hr hp hs => exact h.keeps_setHeld_consumeEdge _ _
  | sample e rest n he hr hp hs hn => exact (h.keeps_setHeld_consumeEdge _ _).keeps_sampleStep hp n (nibbleAt_lt hn)

end

/-! ### The statement on the record of the stream -/

/-- Settles O54: each effect of a step keeps the record; that k is 0 outside DECODE is the one item of R31 it needs. -/
theorem stepKeepsStreamInvariant : Obligations.StepKeepsStreamInvariant := fun _ _ hinv h hst => h.keeps_step hinv hst

end Sys2Proof.Safety

/-! SUPPORT. The sample datapath on integers (spec/40_sample_datapath.md R65-R75): each stage, in any width that holds its result,
is the exact operation of R67-R71, so that the sample is `exactSample` in the source's widths and in those of R74. -/

namespace Sys2Proof.Machine

open Sys2Proof.Safety

/-! ### Word operations that do not wrap are exact -/

theorem ofInt_two_pow (w k : Nat) : BitVec.ofInt w (2 ^ k) = BitVec.twoPow w k := by
  have hcast : (2 : Int) ^ k = (2 ^ k : Nat) := by push_cast; rfl
  rw [hcast, BitVec.ofInt_natCast]
  exact BitVec.eq_of_toNat_eq (by rw [BitVec.toNat_ofNat, BitVec.toNat_twoPow])

section

variable {w : Nat} (hw : 0 < w)
include hw

theorem shiftLeft_toInt (x : BitVec w) (k : Nat) (hlo : -2 ^ (w - 1) ≤ x.toInt * 2 ^ k) (hhi : x.toInt * 2 ^ k < 2 ^ (w - 1)) :
    (x <<< k).toInt = x.toInt * 2 ^ k := by
  have hword : x <<< k = BitVec.ofInt w (x.toInt * 2 ^ k) := by
    rw [BitVec.shiftLeft_eq_mul_twoPow, BitVec.ofInt_mul, BitVec.ofInt_toInt, ofInt_two_pow]
  rw [hword, BitVec.toInt_ofInt_eq_self hw hlo hhi]

theorem signExtend_mul_toInt {v : Nat} (c h : BitVec v) (hlo : -2 ^ (w - 1) ≤ c.toInt * h.toInt)
    (hhi : c.toInt * h.toInt < 2 ^ (w - 1)) : (c.signExtend w * h.signExtend w).toInt = c.toInt * h.toInt := by
  have hword : c.signExtend w * h.signExtend w = BitVec.ofInt w (c.toInt * h.toInt) := (BitVec.ofInt_mul _ _).symm
  rw [hword, BitVec.toInt_ofInt_eq_self hw hlo hhi]

theorem add_add_toInt (x y z : BitVec w) (hlo : -2 ^ (w - 1) ≤ x.toInt + y.toInt + z.toInt)
    (hhi : x.toInt + y.toInt + z.toInt < 2 ^ (w - 1)) : (x + y + z).toInt = x.toInt + y.toInt + z.toInt := by
  have hword : x + y + z = BitVec.ofInt w (x.toInt + y.toInt + z.toInt) := by
    rw [BitVec.ofInt_add, BitVec.ofInt_add, BitVec.ofInt_toInt, BitVec.ofInt_toInt, BitVec.ofInt_toInt]
  rw [hword, BitVec.toInt_ofInt_eq_self hw hlo hhi]

end

/-- An arithmetic right shift is a floor division (R7). -/
theorem sshiftRight_toInt {w : Nat} (x : BitVec w) (k : Nat) : (x.sshiftRight k).toInt = x.toInt / 2 ^ k := by
  rw [BitVec.toInt_sshiftRight, Int.shiftRight_eq_div_pow]
  push_cast
  rfl

/-- The low bits of a word are its value's representative modulo their power of two. -/
theorem setWidth_toInt_of_le {v w : Nat} (hvw : v ≤ w) (x : BitVec w) : (x.setWidth v).toInt = Int.bmod x.toInt (2 ^ v) := by
  rw [← BitVec.signExtend_eq_setWidth_of_le x hvw, BitVec.toInt_signExtend, Nat.min_eq_left hvw]

/-! ### The scaled residual (R66, R67) -/

theorem nibble_toInt_range : ∀ n : Nibble, -8 ≤ n.toInt ∧ n.toInt ≤ 7 := by decide

theorem shiftOf_toNat : ∀ m : Nibble, (shiftOf m).toNat = m.toNat + 8 := by decide

/-- The nibble in the top four bits of a 32-bit word is the signed nibble at bit 28. -/
theorem shl32_nibble_toInt : ∀ n : Nibble, (shl32 (n.setWidth 32) 28).toInt = n.toInt * 2 ^ 28 := by decide

theorem scaledNibble_range (n : Nibble) (k : Nat) : -8 * 2 ^ k ≤ n.toInt * 2 ^ k ∧ n.toInt * 2 ^ k ≤ 7 * 2 ^ k := by
  obtain ⟨hlo, hhi⟩ := nibble_toInt_range n
  have hk : (0 : Int) ≤ 2 ^ k := by positivity
  exact ⟨Int.mul_le_mul_of_nonneg_right hlo hk, Int.mul_le_mul_of_nonneg_right hhi hk⟩

/-- Over all shifts the scaled residual fits 24 signed bits (R74). -/
theorem scaledNibble_bounds (n m : Nibble) :
    -8388608 ≤ n.toInt * 2 ^ (20 - m.toNat) ∧ n.toInt * 2 ^ (20 - m.toNat) ≤ 7340032 := by
  obtain ⟨hlo, hhi⟩ := scaledNibble_range n (20 - m.toNat)
  have hk : (2 : Int) ^ (20 - m.toNat) ≤ 2 ^ 20 := pow_le_pow_right₀ (by decide) (Nat.sub_le _ _)
  omega

theorem scaledResidual_toInt (n m : Nibble) : (scaledResidual n m).toInt = n.toInt * 2 ^ (20 - m.toNat) := by
  have hm := m.isLt
  have hpow : (2 : Int) ^ 28 = 2 ^ (20 - m.toNat) * 2 ^ (m.toNat + 8) := by rw [← pow_add]; congr 1; omega
  rw [scaledResidual, asr, sshiftRight_toInt, shl32_nibble_toInt, shiftOf_toNat, hpow, ← mul_assoc]
  exact Int.mul_ediv_cancel _ (by positivity)

/-- A signed nibble placed at bit 20 - m is exact in any width of 24 bits or more. -/
theorem placedNibble_toInt {w : Nat} (hw : 24 ≤ w) (n m : Nibble) :
    (n.signExtend w <<< (20 - m.toNat)).toInt = n.toInt * 2 ^ (20 - m.toNat) := by
  have hn : (n.signExtend w).toInt = n.toInt := BitVec.toInt_signExtend_of_le (by omega)
  obtain ⟨hlo, hhi⟩ := scaledNibble_bounds n m
  have hpow : (2 : Int) ^ 23 ≤ 2 ^ (w - 1) := pow_le_pow_right₀ (by decide) (by omega)
  rw [shiftLeft_toInt (by omega) _ _ (by rw [hn]; omega) (by rw [hn]; omega), hn]

/-! ### The products (R68) -/

theorem rom_abs_le : ∀ t : BitVec 2, |(romC1 t).toInt| ≤ 460 ∧ |(romC2 t).toInt| ≤ 460 := by decide

theorem sample_abs_le (h : Sample) : |h.toInt| ≤ 32768 := by
  rw [abs_le]
  exact ⟨h.le_toInt, h.toInt_lt.le⟩

/-- A coefficient of the table times any history value (R68). -/
theorem coef_mul_abs_le {c : Sample} (hc : |c.toInt| ≤ 460) (h : Sample) : |c.toInt * h.toInt| ≤ 15073280 := by
  rw [abs_mul]
  exact Int.mul_le_mul hc (sample_abs_le h) (abs_nonneg _) (by decide)

/-- The 32-bit product of any two samples is exact: widening comes before the multiplication. -/
theorem tapProduct_toInt (c h : Sample) : (tapProduct c h).toInt = c.toInt * h.toInt :=
  signExtend_mul_toInt (by decide) c h (le_trans (by decide) BitVec.le_toInt_mul_toInt)
    (lt_of_le_of_lt BitVec.toInt_mul_toInt_le (by decide))

/-- With a coefficient of the table 25 bits are enough (R74). -/
theorem narrowProduct_toInt {c : Sample} (hc : |c.toInt| ≤ 460) (h : Sample) :
    (c.signExtend 25 * h.signExtend 25).toInt = c.toInt * h.toInt := by
  obtain ⟨hlo, hhi⟩ := abs_le.mp (coef_mul_abs_le hc h)
  exact signExtend_mul_toInt (by decide) c h (by omega) (by omega)

/-! ### The accumulator (R69) -/

/-- The exact accumulator from the stages' values. -/
theorem exactAcc_eq (n : Nibble) (t : BitVec 2) (m : Nibble) (h1 h2 : Sample) :
    exactAcc t.toNat m.toNat n.toInt h1.toInt h2.toInt =
      n.toInt * 2 ^ (20 - m.toNat) + (romC1 t).toInt * h1.toInt + (romC2 t).toInt * h2.toInt := by
  obtain ⟨hc1, hc2⟩ := coefficientTable t
  rw [exactAcc, hc1, hc2]

theorem rom_rows : ∀ t : BitVec 2,
    ((romC1 t).toInt = 0 ∧ (romC2 t).toInt = 0) ∨ ((romC1 t).toInt = 240 ∧ (romC2 t).toInt = 0) ∨
      ((romC1 t).toInt = 460 ∧ (romC2 t).toInt = -208) ∨ ((romC1 t).toInt = 392 ∧ (romC2 t).toInt = -220) := by decide

/-- Both ends of the accumulator's range belong to row 2 of the table; each other row stays inside. -/
theorem exactAcc_bounds (n : Nibble) (t : BitVec 2) (m : Nibble) (h1 h2 : Sample) :
    -30277424 ≤ exactAcc t.toNat m.toNat n.toInt h1.toInt h2.toInt ∧
      exactAcc t.toNat m.toNat n.toInt h1.toInt h2.toInt ≤ 29228596 := by
  obtain ⟨hrlo, hrhi⟩ := scaledNibble_bounds n m
  have h1lo := h1.le_toInt
  have h1hi := h1.toInt_lt
  have h2lo := h2.le_toInt
  have h2hi := h2.toInt_lt
  rw [exactAcc_eq]
  rcases rom_rows t with ⟨hc1, hc2⟩ | ⟨hc1, hc2⟩ | ⟨hc1, hc2⟩ | ⟨hc1, hc2⟩ <;> rw [hc1, hc2] <;> omega

/-- The 32-bit accumulator never wraps. -/
theorem accumulate_toInt (n : Nibble) (t : BitVec 2) (m : Nibble) (h1 h2 : Sample) :
    (accumulate n t m h1 h2).toInt = exactAcc t.toNat m.toNat n.toInt h1.toInt h2.toInt := by
  obtain ⟨hlo, hhi⟩ := exactAcc_bounds n t m h1 h2
  have hsum : (scaledResidual n m).toInt + (tapProduct (romC1 t) h1).toInt + (tapProduct (romC2 t) h2).toInt =
      exactAcc t.toNat m.toNat n.toInt h1.toInt h2.toInt := by
    rw [scaledResidual_toInt, tapProduct_toInt, tapProduct_toInt, exactAcc_eq]
  rw [accumulate, add_add_toInt (by decide) _ _ _ (by omega) (by omega), hsum]

/-! ### Normalisation, narrowing and the sample (R65, R70, R71) -/

theorem normalise_toInt (a : Acc) : (normalise a).toInt = a.toInt / 256 := sshiftRight_toInt a 8

theorem narrow_toInt (q : Acc) : (narrow q).toInt = Int.bmod q.toInt (2 ^ 16) := setWidth_toInt_of_le (by decide) q

/-- The sample of the datapath is the sample of the exact integer computation. -/
theorem reconstruct_toInt (n : Nibble) (t : BitVec 2) (m : Nibble) (h1 h2 : Sample) :
    (reconstruct n t m h1 h2).toInt = exactSample t.toNat m.toNat n.toInt h1.toInt h2.toInt := by
  rw [reconstruct, narrow_toInt, normalise_toInt, accumulate_toInt, exactSample]

/-- SAMPLE answers in every state: no operand value is left out (R73). -/
theorem exec_sample (n : Nibble) (s : State) : exec (.sample n) s = .next (sampleOp n s) := rfl

/-! ### The datapath in the sufficient widths (R74) -/

/-- The same integers pass through the narrower words; the 18-bit q keeps the 16 bits that narrowing takes. -/
theorem narrowDatapath_toInt (n : Nibble) (t : BitVec 2) (m : Nibble) (h1 h2 : Sample) :
    (narrowDatapath n t m h1 h2).toInt = exactSample t.toNat m.toNat n.toInt h1.toInt h2.toInt := by
  obtain ⟨hlo, hhi⟩ := exactAcc_bounds n t m h1 h2
  obtain ⟨hc1, hc2⟩ := rom_abs_le t
  have hsum : ((n.signExtend 24 <<< (20 - m.toNat)).signExtend 26).toInt +
      (((romC1 t).signExtend 25 * h1.signExtend 25).signExtend 26).toInt +
      (((romC2 t).signExtend 25 * h2.signExtend 25).signExtend 26).toInt =
        exactAcc t.toNat m.toNat n.toInt h1.toInt h2.toInt := by
    rw [BitVec.toInt_signExtend_of_le (by decide), BitVec.toInt_signExtend_of_le (by decide),
      BitVec.toInt_signExtend_of_le (by decide), placedNibble_toInt (by decide), narrowProduct_toInt hc1,
      narrowProduct_toInt hc2, exactAcc_eq]
  simp only [narrowDatapath]
  rw [BitVec.setWidth_setWidth_of_le _ (by decide), setWidth_toInt_of_le (by decide), sshiftRight_toInt,
    add_add_toInt (by decide) _ _ _ (by omega) (by omega), hsum]
  rfl

end Sys2Proof.Machine

namespace Sys2Proof.Safety

open Sys2Proof.Machine

/-! ### The statements on the sample datapath -/

/-- Settles O7: widening before the multiplication makes each product exact, and the table's coefficients are at most 460. -/
theorem productsAreExact : Obligations.ProductsAreExact := by
  intro t h
  obtain ⟨hc1, hc2⟩ := rom_abs_le t
  rw [tapProduct_toInt, tapProduct_toInt]
  exact ⟨rfl, rfl, coef_mul_abs_le hc1 h, coef_mul_abs_le hc2 h, by decide⟩

/-- Settles O8: the sum is the exact accumulator, whose range is inside 32 bits; both ends are reached. -/
theorem accumulatorNeverWraps : Obligations.AccumulatorNeverWraps := by
  refine ⟨fun n t m h1 h2 => ?_, by decide, by decide⟩
  rw [accumulate_toInt, scaledResidual_toInt, tapProduct_toInt, tapProduct_toInt]
  exact ⟨exactAcc_eq n t m h1 h2, exactAcc_bounds n t m h1 h2⟩

/-- Settles O9: an arithmetic shift is a floor division, and the range is the accumulator's divided by 256. -/
theorem normaliseIsFloor : Obligations.NormaliseIsFloor := by
  refine ⟨normalise_toInt, fun n t m h1 h2 => ?_, by decide, by decide⟩
  obtain ⟨hlo, hhi⟩ := exactAcc_bounds n t m h1 h2
  rw [normalise_toInt, accumulate_toInt]
  omega

/-- Settles O10: the low 16 bits of a word are its representative modulo 2^16. -/
theorem narrowWraps : Obligations.NarrowWraps := ⟨narrow_toInt, by decide, by decide, by decide⟩

/-- Settles O11: SAMPLE is the history shift of the reconstructed sample, which is the exact one. -/
theorem sampleIsExactComputation : Obligations.SampleIsExactComputation :=
  ⟨fun n s => ⟨reconstruct n s.tidx s.shm8 s.h1 s.h2, reconstruct_toInt n s.tidx s.shm8 s.h1 s.h2, exec_sample n s⟩,
    by decide, by decide, by decide, by decide⟩

/-- Settles O12: both datapaths give the exact sample. -/
theorem narrowDatapathAgrees : Obligations.NarrowDatapathAgrees := fun n t m h1 h2 =>
  BitVec.eq_of_toInt_eq ((narrowDatapath_toInt n t m h1 h2).trans (reconstruct_toInt n t m h1 h2).symm)

/-- Settles O6: the shift right by m + 8 undoes that much of the shift left by 28, with nothing lost. -/
theorem scalerIsExact : Obligations.ScalerIsExact := by
  intro n m
  have hm := m.isLt
  obtain ⟨hlo, hhi⟩ := nibble_toInt_range n
  have hk : 28 - (m.toNat + 8) = 20 - m.toNat := by omega
  rw [shiftOf_toNat, scaledResidual_toInt, hk]
  obtain ⟨hrlo, hrhi⟩ := scaledNibble_range n (20 - m.toNat)
  refine ⟨hlo, hhi, rfl, rfl, by omega, by omega, hrlo, hrhi, BitVec.eq_of_toInt_eq ?_⟩
  rw [scaledResidual_toInt, placedNibble_toInt (by decide)]

/-- Settles O13: SAMPLE's new history is the sample of the five operands, and the old h1. -/
theorem sampleDependsOnItsOperands : Obligations.SampleDependsOnItsOperands := by
  intro n s s' t t' htidx hshm8 h1 h2 ht ht'
  obtain rfl : sampleOp n s = t := by simpa [exec_sample] using ht
  obtain rfl : sampleOp n s' = t' := by simpa [exec_sample] using ht'
  simp [sampleOp_eq, htidx, hshm8, h1, h2]

end Sys2Proof.Safety

/-! SUPPORT. The frame decoder (spec/41_frame_decoder.md): a frame's residuals are the nibbles of its sample steps in order, a
byte captured or a sample taken writes these fields and no others, and the sample steps left in a frame are taken one after the other,
with the statements of the frame decoder's family. -/

namespace Sys2Proof.Machine

open Sys2Proof.Safety

/-! ### The header byte (R54, R78, R79) -/

theorem nibbles_toNat (hi lo : Nibble) : (hi ++ lo).toNat = 16 * hi.toNat + lo.toNat := by
  rw [BitVec.toNat_append, ← Nat.shiftLeft_add_eq_or_of_lt lo.isLt, Nat.shiftLeft_eq, Nat.mul_comm]

theorem nibbles_eq_ofNat (hi lo : Nibble) : hi ++ lo = BitVec.ofNat 8 (16 * hi.toNat + lo.toNat) := by
  rw [← nibbles_toNat, BitVec.ofNat_toNat, BitVec.setWidth_eq]

/-- The two bits of the header byte that HeaderValid latches are the table index reduced to its two low bits. -/
theorem headerTidx_eq_ofNat (hb : Byte) : hb.extractLsb' 4 2 = BitVec.ofNat 2 (hb.toNat / 16) := by
  rw [BitVec.extractLsb', Nat.shiftRight_eq_div_pow]

theorem loNibble_eq_ofNat (b : Byte) : loNibble b = BitVec.ofNat 4 b.toNat := rfl

/-! ### The residuals of a frame and the nibble of a sample step (R81) -/

/-- The residuals of a list of bytes by index: two a byte, the high nibble's first. -/
theorem byteResiduals_getElem? : ∀ (bs : List Byte) (j : Nat),
    (bs.flatMap fun b => [(hiNibble b).toInt, (loNibble b).toInt])[j]? =
      bs[j / 2]?.map fun b => if j % 2 = 0 then (hiNibble b).toInt else (loNibble b).toInt
  | [], j => by simp
  | b :: bs, 0 => rfl
  | b :: bs, 1 => rfl
  | b :: bs, j + 2 => by simpa using byteResiduals_getElem? bs j

theorem residualByte_eq_getElem? (s : State) : residualByte s = s.fbuf.toList.tail[s.k.toNat / 2]? := by
  rw [List.getElem?_tail, Nat.add_comm, Vector.getElem?_toList]
  rfl

/-- The residual of step k is the value of its nibble; a k of 28 or more has neither. -/
theorem frameResiduals_getElem? (s : State) : (frameResiduals s.fbuf)[s.k.toNat]? = (nibbleAt s).map BitVec.toInt := by
  rw [frameResiduals, byteResiduals_getElem?, nibbleAt, residualByte_eq_getElem?, Option.map_map]
  congr 1
  funext b
  exact (selectNibble_toInt s.k b).symm

theorem exists_nibbleAt {s : State} (hk : s.k.toNat < 28) : ∃ n, nibbleAt s = some n :=
  Option.isSome_iff_exists.mp ((nibbleAt_isSome s).mpr hk)

theorem frameResiduals_of_nibbleAt {s : State} {n : Nibble} (h : nibbleAt s = some n) :
    (frameResiduals s.fbuf)[s.k.toNat]? = some n.toInt := by
  rw [frameResiduals_getElem?, h]
  rfl

theorem frameResiduals_length (fb : Vector Byte 15) : (frameResiduals fb).length = 28 := by
  simp [frameResiduals, List.length_flatMap]

/-- The residuals from step k on begin with that of step k. -/
theorem frameResiduals_drop (fb : Vector Byte 15) {k : Nat} (hk : k < 28) :
    (frameResiduals fb).drop k = (frameResiduals fb).getD k 0 :: (frameResiduals fb).drop (k + 1) := by
  have hlt : k < (frameResiduals fb).length := by rwa [frameResiduals_length]
  rw [List.drop_eq_getElem_cons hlt, List.getD_eq_getElem _ _ hlt]

/-- Residual bytes all 0x00 are 28 zero residuals. -/
theorem frameResiduals_zero {fb : Vector Byte 15} (h : ∀ b ∈ fb.toList.tail, b = 0) :
    frameResiduals fb = List.replicate 28 0 := by
  have htail : fb.toList.tail = List.replicate 14 0 := List.eq_replicate_iff.mpr ⟨by simp, h⟩
  rw [frameResiduals, htail]
  rfl

theorem exactSamples_zero (t m n : Nat) : exactSamples t m (List.replicate n 0) 0 0 = List.replicate n 0 := by
  have hzero : exactSample t m 0 0 0 = 0 := by simp [exactSample, exactAcc]
  induction n with
  | zero => rfl
  | succ n ih => rw [List.replicate_succ, exactSamples, hzero, ih]

/-! ### The byte capture (R76, R77) -/

theorem captureByte_early (b : Byte) {s : State} (h : s.pos.toNat < 14) :
    captureByte b s = .next { s with done := false, fbuf := s.fbuf.setIfInBounds s.pos.toNat b, pos := s.pos + 1 } := by
  rw [captureByte, dif_pos (by omega), if_pos h, ← set_eq_setIfInBounds s.fbuf s.pos.toNat (by omega) b]
  rfl

/-! ### A sample taken -/

/-- RES in DECODE is the sample step on the half of the byte that k selects (R82; log entry 11). -/
theorem exec_res_decode (hi lo : Nibble) {s : State} (hp : s.phase = .decode) (hk : s.k.toNat < 28) :
    exec (.res hi lo) s = .next (sampleStep (selectNibble s.k (hi ++ lo)) s) := by
  simp [exec, execRes, hp, hk]

theorem selectNibble_append_toInt (k : BitVec 5) (hi lo : Nibble) :
    (selectNibble k (hi ++ lo)).toInt = if k.toNat % 2 = 0 then hi.toInt else lo.toInt := by
  rw [selectNibble_toInt, hiNibble_append, loNibble_append]

/-- The edge at which the host takes a sample is the sample step on the nibble of k (R80). -/
theorem step_takeSample {e : Edge} {rest : List Edge} {s : State} {n : Nibble} (he : s.edges = e :: rest) (hr : e.rst = false)
    (hs : hostStable e s = true) (hp : s.phase = .decode) (hsmp : e.smpReady = true) (hn : nibbleAt s = some n) :
    step s = .next (sampleStep n (setHeld (offer e) (consumeEdge rest s))) := by
  rw [step_live he hr hs, handshake_decode (s := consumeEdge rest s) hp, if_pos hsmp]
  exact sampleTransfer_some hn

/-- The index of a sample step that does not retire its frame moves on by one (R80). -/
theorem stepIndex_succ_toNat {k : BitVec 5} (hk : k.toNat < 27) : (k + 1).toNat = k.toNat + 1 := by
  rw [BitVec.toNat_add]
  exact Nat.mod_eq_of_lt (by simp; omega)

/-! ### The samples left in a frame (R84) -/

/-- The state when the host has taken the sample `x` before k = 27, offering nothing: the history has shifted (R72, R80). -/
def sampleTaken (rest : List Edge) (x : Sample) (s : State) : State :=
  { s with edges := rest, draws := s.draws + 1, h1 := x, h2 := s.h1, stream := s.stream ++ [x], k := s.k + 1 }

/-- The state when the host has taken `xs`, the samples left in the frame, offering nothing: the history is the last two of the
old history and `xs`, and the frame has retired (R72, R83). -/
def frameTaken (rest : List Edge) (xs : List Sample) (s : State) : State :=
  { s with
    edges := rest, draws := s.draws + xs.length, stream := s.stream ++ xs, h1 := lastSample ([s.h2, s.h1] ++ xs),
    h2 := secondLastSample ([s.h2, s.h1] ++ xs), k := 0, phase := .accept,
    frameCount := (s.frameCount + 1) % 2 ^ s.frameCntW }

theorem lastSample_append {ys : List Sample} (xs : List Sample) (h : ys ≠ []) : lastSample (xs ++ ys) = lastSample ys := by
  obtain ⟨zs, z, rfl⟩ := (List.eq_nil_or_concat' ys).resolve_left h
  rw [← List.append_assoc, lastSample_append_singleton, lastSample_append_singleton]

theorem secondLastSample_append {ys : List Sample} (xs : List Sample) (h : 2 ≤ ys.length) :
    secondLastSample (xs ++ ys) = secondLastSample ys := by
  obtain ⟨zs, z, rfl⟩ := (List.eq_nil_or_concat' ys).resolve_left (by rintro rfl; simp at h)
  rw [← List.append_assoc, secondLastSample_append_singleton, secondLastSample_append_singleton]
  exact lastSample_append xs (by rintro rfl; simp at h)

/-- One sample taken and the samples left after it are the samples left before it. -/
theorem frameTaken_sampleTaken (rest edges : List Edge) (x : Sample) (xs : List Sample) (s : State) :
    frameTaken rest xs (sampleTaken edges x s) = frameTaken rest (x :: xs) s := by
  have h1 : lastSample ([s.h2, s.h1] ++ x :: xs) = lastSample ([s.h1, x] ++ xs) := lastSample_append [s.h2] (by simp)
  have h2 : secondLastSample ([s.h2, s.h1] ++ x :: xs) = secondLastSample ([s.h1, x] ++ xs) :=
    secondLastSample_append [s.h2] (by simp)
  rw [frameTaken, frameTaken, h1, h2]
  simp [sampleTaken, Nat.add_assoc, Nat.add_comm 1]

end Sys2Proof.Machine

namespace Sys2Proof.Safety

open Sys2Proof.Machine

/-! ### The statements on a byte captured and a sample taken -/

/-- Settles O19: byte 1 + k/2 is byte k/2 of those after the header, and its half is that of the residual's index. -/
theorem nibbleSelect : Obligations.NibbleSelect := by
  refine fun s => ⟨frameResiduals_length s.fbuf, fun hk => ?_⟩
  obtain ⟨n, hn⟩ := exists_nibbleAt hk
  refine ⟨n, hn, ?_, frameResiduals_of_nibbleAt hn⟩
  obtain ⟨b, hb, rfl⟩ := Option.map_eq_some_iff.mp hn
  rw [residualByte_eq_getElem?, List.getElem?_tail, Nat.add_comm] at hb
  rw [List.getD_eq_getElem?_getD, hb]
  rfl

/-- Settles O20: the step is the sample step on the nibble of k, whose value is the k-th residual. -/
theorem sampleStepEmits : Obligations.SampleStepEmits := by
  intro e rest s he hr hs hp hk
  refine ⟨fun hsmp => ?_, fun hsmp => ?_⟩
  · rw [step_live he hr hs, handshake_decode (s := consumeEdge rest s) hp, hsmp]
    rfl
  · obtain ⟨n, hn⟩ := exists_nibbleAt hk
    have hres : (frameResiduals s.fbuf).getD s.k.toNat 0 = n.toInt := by
      rw [List.getD_eq_getElem?_getD, frameResiduals_of_nibbleAt hn]
      rfl
    rw [step_takeSample he hr hs hp hsmp hn, hres]
    refine ⟨_, reconstruct_toInt n s.tidx s.shm8 s.h1 s.h2, fun h27 => ?_, fun h27 => ?_⟩
    · rw [sampleStep_early (s := setHeld (offer e) (consumeEdge rest s)) h27]
      rfl
    · rw [sampleStep_last (s := setHeld (offer e) (consumeEdge rest s)) (by simp [h27])]
      rfl

/-- Settles O17: the three cases of pos, the header byte deciding the second. -/
theorem dataCapturesByte : Obligations.DataCapturesByte := by
  refine fun b s => ⟨fun hp h14 => ?_, fun hp hpos hlegal => ?_, fun hp hpos hillegal => ?_, fun hp => ?_, fun hp => ?_⟩
  · rw [exec_data_accept b hp, captureByte_early b h14]
  · rw [exec_data_accept b hp, captureByte_complete b hpos, runHeader_eq, if_pos hlegal, headerTidx_eq_ofNat,
      loNibble_eq_ofNat, ← set_eq_setIfInBounds s.fbuf 14 (by decide) b]
    rfl
  · rw [exec_data_accept b hp, captureByte_complete b hpos, runHeader_eq, if_neg (by omega),
      ← set_eq_setIfInBounds s.fbuf 14 (by decide) b]
    rfl
  · simp only [exec, execData, hp]
  · simp only [exec, execData, hp]

/-- Settles O21: in ACCEPT the byte capture, in DECODE the sample step on the half of the byte that k selects. -/
theorem residualByteByPhase : Obligations.ResidualByteByPhase := by
  refine fun hi lo s => ⟨fun hp h14 => ?_, fun hp => ?_, fun hp hk => ?_, fun hp => ?_⟩
  · rw [exec_res_accept hi lo hp, captureByte_early _ h14]
  · rw [exec_res_accept hi lo hp, exec_data_accept _ hp]
  · rw [exec_res_decode hi lo hp hk, ← selectNibble_append_toInt]
    refine ⟨_, reconstruct_toInt _ s.tidx s.shm8 s.h1 s.h2, ?_⟩
    by_cases h27 : s.k.toNat < 27
    · rw [sampleStep_early h27, if_pos h27, if_pos h27, if_pos h27, ← hp]
      rfl
    · rw [sampleStep_last h27, if_neg h27, if_neg h27, if_neg h27]
      rfl
  · simp only [exec, execRes, hp]

/-- Settles O22: the even step is no retiring one, so the odd step follows it in DECODE and decodes the other half. -/
theorem residualByteGivesTwoSamples : Obligations.ResidualByteGivesTwoSamples := by
  intro hi lo s hp hk heven
  have h27 : s.k.toNat < 27 := by omega
  have hk' : (s.k + 1).toNat = s.k.toNat + 1 := stepIndex_succ_toNat h27
  obtain ⟨-, -, hfirst, -⟩ := residualByteByPhase hi lo s
  obtain ⟨x, hx, hstep⟩ := hfirst hp hk
  rw [if_pos heven] at hx
  rw [if_pos h27, if_pos h27, if_pos h27] at hstep
  obtain ⟨-, -, hsecond, -⟩ := residualByteByPhase hi lo
    { s with h1 := x, h2 := s.h1, stream := s.stream ++ [x], k := s.k + 1, phase := .decode }
  obtain ⟨y, hy, hstep'⟩ := hsecond rfl (by simp only [hk']; omega)
  rw [if_neg (by simp only [hk']; omega)] at hy
  exact ⟨x, y, _, by rw [hstep, andThen_next, hstep'], hx, hy, List.append_assoc _ _ _, rfl, rfl⟩

/-- Settles O44: the only effect of a live edge in DECODE other than holding is the sample step, which writes neither. -/
theorem latchAndBufferHoldInDecode : Obligations.LatchAndBufferHoldInDecode := by
  intro e rest s t he hr hp hst
  cases step_effect hst with
  | noEdge he' => exact ⟨rfl, rfl, rfl⟩
  | reset e' rest' he' hr' =>
    obtain ⟨rfl, -⟩ := List.cons.inj (he.symm.trans he')
    exact absurd hr' (by simp [hr])
  | noToken e' rest' he' hr' hp' ho => exact absurd hp hp'
  | token e' rest' w t he' hr' hp' ho hx ht => exact absurd hp hp'
  | held e' rest' he' hr' hp' hs => exact ⟨rfl, rfl, rfl⟩
  | sample e' rest' n he' hr' hp' hs hn =>
    obtain ⟨htidx, hshm8, hfbuf, -⟩ := sampleStep_frame n (setHeld (offer e') (consumeEdge rest' s))
    exact ⟨htidx, hshm8, hfbuf⟩

/-- Settles O15, row by row of the four legal table indices. -/
theorem validHeaderLatches : Obligations.ValidHeaderLatches := by
  intro t m s i hi
  have hm := m.isLt
  obtain ⟨hc1, hc2⟩ := coefficientTable t
  have hrow : encode i = .hdr (t.setWidth 4 ++ m) ∧ exec i s = .next (headerValid t m s) := by
    rcases cmd_cases t with rfl | rfl | rfl | rfl <;> subst hi <;> exact ⟨rfl, rfl⟩
  obtain ⟨hword, hexec⟩ := hrow
  refine ⟨?_, hexec, hc1, hc2, shiftOf_toNat m, ?_, ?_⟩
  · rw [hword, nibbles_eq_ofNat, BitVec.toNat_setWidth_of_le (by decide)]
  · rw [shiftOf_toNat]; omega
  · rw [shiftOf_toNat]; omega

/-- Settles O16: the two ranges of the table index, and error entry with the byte of its halves. -/
theorem illegalHeaderRaises : Obligations.IllegalHeaderRaises := fun t m _ =>
  ⟨fun h4 h7 => (decode_hdr_illegal m h4).trans (if_pos (by omega)),
    fun h8 => (decode_hdr_illegal m (by omega)).trans (if_neg (by omega)), nibbles_toNat t m, rfl, rfl⟩

/-! ### The run of a frame, and its statements -/

/-- The sample step at an edge on which the host takes the sample and offers nothing. -/
theorem step_takeEdge {rest : List Edge} {s : State} (he : s.edges = takeEdge :: rest) (hh : s.held = none)
    (hp : s.phase = .decode) (hk : s.k.toNat < 28) :
    ∃ x : Sample,
      x.toInt = exactSample s.tidx.toNat s.shm8.toNat ((frameResiduals s.fbuf).getD s.k.toNat 0) s.h1.toInt s.h2.toInt ∧
      (s.k.toNat < 27 → step s = .next (sampleTaken rest x s)) ∧
      (s.k.toNat = 27 → step s = .next (frameTaken rest [x] s)) := by
  obtain ⟨-, htaken⟩ := sampleStepEmits takeEdge rest s he rfl (by simp [hostStable, hh]) hp hk
  obtain ⟨x, hx, hearly, hlast⟩ := htaken rfl
  refine ⟨x, hx, fun h27 => ?_, fun h27 => ?_⟩
  · rw [hearly h27, sampleTaken, hh]
    rfl
  · rw [hlast h27, frameTaken, hh]
    rfl

/-- A host that takes a sample at each edge takes the exact samples of the residuals left in the frame, in order. -/
theorem run_takesFrame (rest : List Edge) (left : Nat) : ∀ {s : State}, s.phase = .decode → s.k.toNat + left = 27 →
    s.held = none → s.edges = List.replicate (left + 1) takeEdge ++ rest →
    ∃ xs : List Sample, xs.length = left + 1 ∧
      xs.map BitVec.toInt =
        exactSamples s.tidx.toNat s.shm8.toNat ((frameResiduals s.fbuf).drop s.k.toNat) s.h1.toInt s.h2.toInt ∧
      core.run (left + 1) s = .next (frameTaken rest xs s) := by
  induction left with
  | zero =>
    intro s hp hk hh he
    obtain ⟨x, hx, -, hlast⟩ := step_takeEdge he hh hp (by omega)
    refine ⟨[x], rfl, ?_, run_succ 0 (hlast hk)⟩
    rw [frameResiduals_drop _ (by omega), List.drop_eq_nil_of_le (by rw [frameResiduals_length]; omega), exactSamples, ← hx]
    rfl
  | succ left ih =>
    intro s hp hk hh he
    have h27 : s.k.toNat < 27 := by omega
    have hk' : (s.k + 1).toNat = s.k.toNat + 1 := stepIndex_succ_toNat h27
    obtain ⟨x, hx, hearly, -⟩ := step_takeEdge (rest := List.replicate (left + 1) takeEdge ++ rest) he hh hp (by omega)
    obtain ⟨xs, hlen, hval, hrun⟩ := ih (s := sampleTaken _ x s) hp (show (s.k + 1).toNat + left = 27 by omega) hh rfl
    refine ⟨x :: xs, by rw [List.length_cons, hlen], ?_, ?_⟩
    · rw [frameResiduals_drop _ (by omega), List.map_cons, exactSamples, ← hx, ← hk', hval]
      rfl
    · rw [run_succ _ (hearly h27), hrun, frameTaken_sampleTaken]

/-- Settles O23: from k = 0 the residuals left are all 28, and two samples or more leave nothing of the old history. -/
theorem frameGivesTwentyEightSamples : Obligations.FrameGivesTwentyEightSamples := by
  intro s rest hp hk hh he
  obtain ⟨xs, hlen, hval, hrun⟩ := run_takesFrame rest 27 hp (by simp [hk]) hh he
  refine ⟨_, xs, hrun, hlen, by simpa [hk] using hval, ?_⟩
  rw [frameTaken, hlen, lastSample_append _ (by rintro rfl; simp at hlen), secondLastSample_append _ (by omega)]

/-- Settles O24: a zero residual on zero history gives a zero sample, all the frame through. -/
theorem zeroResidualsGiveZeroSamples : Obligations.ZeroResidualsGiveZeroSamples := by
  intro s rest hp hk hh h1 h2 hzero he
  obtain ⟨t, xs, hrun, hlen, hval, rfl⟩ := frameGivesTwentyEightSamples s rest hp hk hh he
  have hxs : xs = List.replicate 28 0 := by
    rw [frameResiduals_zero hzero, h1, h2] at hval
    have hval := hval.trans (exactSamples_zero _ _ 28)
    refine List.eq_replicate_iff.mpr ⟨hlen, fun x hx => BitVec.eq_of_toInt_eq ?_⟩
    exact List.eq_of_mem_replicate (hval ▸ List.mem_map_of_mem hx)
  subst hxs
  exact ⟨_, hrun, rfl, rfl, rfl⟩

end Sys2Proof.Safety

/-! SUPPORT. Stream control (spec/42_stream_control.md): a control token by phase, an edge by phase, the run of a host that plays
tokens, the row of the phase transition table (R128) that each effect of a step follows, and a stream frame by frame (R93), with
the statements of the family. -/

namespace Sys2Proof.Machine

open Sys2Proof.Safety

/-! ### A token by phase (R88, R91, R92) -/

theorem exec_clear (d : Byte) {s : State} (hp : s.phase ≠ .decode) : exec (.clear d) s = .next (clearStream s) := by
  cases hs : s.phase
  case accept => simp only [exec, execClear, hs]
  case decode => exact absurd hs hp
  case error => simp only [exec, execClear, hs]

theorem exec_endTok_boundary (d : Byte) {s : State} (hp : s.phase = .accept) (hpos : s.pos = 0) :
    exec (.endTok d) s = .next (markDone s) := by
  simp only [exec, execEndTok, hp, hpos, if_true]

/-- ERROR discards every token but CLEAR (R91). -/
theorem exec_tok_error {w : TokenWord} {s : State} (hc : tokCmd w ≠ 1) (hp : s.phase = .error) :
    exec (decode (.tok w)) s = .next s := by
  simp only [decode, decodeTok, if_neg hc]
  split_ifs
  · simp only [exec, execData, hp]
  · simp only [exec, execEndTok, hp]
  · simp only [exec, execRsvd, hp]

/-- The token of a DECODE state waits (R92; log entry 12). -/
theorem exec_tok_decode (w : TokenWord) {s : State} (hp : s.phase = .decode) : exec (decode (.tok w)) s = .next s := by
  simp only [decode, decodeTok]
  split_ifs
  · simp only [exec, execData, hp]
  · simp only [exec, execClear, hp]
  · simp only [exec, execEndTok, hp]
  · simp only [exec, execRsvd, hp]

/-- The done flag that END leaves is cleared by the next byte at a boundary anyway (R76, R96). -/
theorem captureByte_markDone (b : Byte) {s : State} (hpos : s.pos = 0) : captureByte b (markDone s) = captureByte b s := by
  have h14 : s.pos.toNat < 14 := by simp [hpos]
  rw [captureByte_early b h14, captureByte_early (s := markDone s) b h14]
  rfl

/-! ### A live edge by phase (R27, R30, R80, R100) -/

/-- Outside DECODE an edge with nothing offered only passes (R30, R115). -/
theorem step_noToken {e : Edge} {rest : List Edge} {s : State} (he : s.edges = e :: rest) (hr : e.rst = false)
    (hh : s.held = none) (hp : s.phase ≠ .decode) (ho : offer e = none) :
    step s = .next (setHeld none (consumeEdge rest s)) := by
  rw [step_live he hr (by simp [hostStable, hh]), handshake_taking (s := consumeEdge rest s) hp, ho]

/-- In DECODE an edge without smp_ready only remembers what is offered (R100, R125). -/
theorem step_holdSample {e : Edge} {rest : List Edge} {s : State} (he : s.edges = e :: rest) (hr : e.rst = false)
    (hs : hostStable e s = true) (hp : s.phase = .decode) (hsmp : e.smpReady = false) :
    step s = .next (setHeld (offer e) (consumeEdge rest s)) := by
  rw [step_live he hr hs, handshake_decode (s := consumeEdge rest s) hp, hsmp]
  rfl

/-- A step in DECODE without reset holds the sample, or transfers it. -/
theorem step_decode_cases {e : Edge} {rest : List Edge} {s t : State} (he : s.edges = e :: rest) (hr : e.rst = false)
    (hp : s.phase = .decode) (h : step s = .next t) :
    (e.smpReady = false ∧ t = setHeld (offer e) (consumeEdge rest s)) ∨
      (e.smpReady = true ∧ ∃ n, nibbleAt s = some n ∧ t = sampleStep n (setHeld (offer e) (consumeEdge rest s))) := by
  have hedge {e' : Edge} {rest' : List Edge} (he' : s.edges = e' :: rest') : e' = e ∧ rest' = rest :=
    List.cons.inj (he'.symm.trans he)
  cases step_effect h with
  | noEdge he' => simp [he] at he'
  | reset e' rest' he' hr' =>
    obtain ⟨rfl, rfl⟩ := hedge he'
    simp [hr] at hr'
  | noToken e' rest' he' hr' hp' ho => exact absurd hp hp'
  | token e' rest' w t he' hr' hp' ho hx ht => exact absurd hp hp'
  | held e' rest' he' hr' hp' hs =>
    obtain ⟨rfl, rfl⟩ := hedge he'
    exact .inl ⟨hs, rfl⟩
  | sample e' rest' n he' hr' hp' hs hn =>
    obtain ⟨rfl, rfl⟩ := hedge he'
    exact .inr ⟨hs, n, hn, rfl⟩

theorem setHeld_of_held {o : Option TokenWord} {s : State} (h : s.held = o) : setHeld o s = s := by
  subst h
  rfl

/-- A sample step neither reads nor writes the token the host must hold. -/
theorem sampleStep_setHeld (n : Nibble) (o : Option TokenWord) (s : State) :
    sampleStep n (setHeld o s) = setHeld o (sampleStep n s) := by
  by_cases h : s.k.toNat < 27
  · rw [sampleStep_early h, sampleStep_early (s := setHeld o s) h]
    rfl
  · rw [sampleStep_last h, sampleStep_last (s := setHeld o s) h]
    rfl

/-! ### What a step transfers (R95, R97) -/

/-- No token transfers a sample; CLEAR only files the old stream under the earlier ones. -/
theorem TokenEffect.sent_eq {w : TokenWord} {s t : State} (ht : TokenEffect w s t) : sent t = sent s := by
  cases ht with
  | cleared hc hp => exact List.append_nil _
  | _ => rfl

theorem sent_sampleStep (n : Nibble) (s : State) :
    sent (sampleStep n s) = sent s ++ [reconstruct n s.tidx s.shm8 s.h1 s.h2] := by
  obtain ⟨-, -, hstream⟩ := sampleStep_written n s
  rw [sent, sent, hstream, List.append_assoc]
  simp [sampleStep_frame n s]

/-! ### The run of a host that plays tokens (R99) -/

theorem run_append {es : List Edge} (es' : List Edge) {s t : State} (h : core.run es.length s = .next t) :
    core.run (es ++ es').length s = core.run es'.length t := by
  induction es generalizing s with
  | nil =>
    cases h
    rfl
  | cons e es ih =>
    cases hst : step s with
    | next u =>
      rw [List.length_cons, run_succ _ hst] at h
      rw [List.cons_append, List.length_cons, run_succ _ hst, ih h]
    | fault r => simp [Host.Core.run, show core.step s = .fault r from hst] at h
    | refused r => simp [Host.Core.run, show core.step s = .refused r from hst] at h

@[simp] theorem playTokens_append (ws ws' : List TokenWord) : playTokens (ws ++ ws') = playTokens ws ++ playTokens ws' :=
  List.flatMap_append

theorem dataWords_append (bs bs' : List Byte) : dataWords (bs ++ bs') = dataWords bs ++ dataWords bs' :=
  List.map_append

/-- One token's edges: the offer, and room for the samples of a frame. -/
theorem playTokens_singleton (w : TokenWord) : playTokens [w] = offerEdge w :: List.replicate 28 takeEdge :=
  List.append_nil _

/-- Outside DECODE the edges left for samples only pass (R30). -/
theorem run_takeEdges_idle (n : Nat) (rest : List Edge) {s : State} (hp : s.phase ≠ .decode) (hh : s.held = none)
    (he : s.edges = List.replicate n takeEdge ++ rest) :
    core.run n s = .next { s with edges := rest, draws := s.draws + n } := by
  induction n generalizing s with
  | zero =>
    subst he
    rfl
  | succ n ih =>
    have hstep := step_noToken (rest := List.replicate n takeEdge ++ rest) he rfl hh hp rfl
    rw [run_succ n hstep, ih (s := setHeld none (consumeEdge _ s)) hp rfl rfl, ← hh]
    simp [setHeld, consumeEdge, Nat.add_comm 1, Nat.add_assoc]

/-- Outside DECODE a played token runs its operation. -/
theorem step_offerEdge {w : TokenWord} {i : Instr} (hd : decode (.tok w) = i) {rest : List Edge} {s : State}
    (he : s.edges = offerEdge w :: rest) (hh : s.held = none) (hp : s.phase ≠ .decode) :
    step s = exec i (setHeld none (consumeEdge rest s)) := by
  obtain ⟨htoken, -⟩ := stepRunsDecodedInstruction
  have hw : tokWord (offerEdge w).tokCmd (offerEdge w).tokData = w := tokWord_tokCmd_tokData w
  rw [htoken (offerEdge w) rest s he rfl (by simp [hostStable, hh]) hp rfl, hw, hd]
  rfl

/-- A played token outside DECODE: its operation, and the 28 edges left for samples. -/
theorem run_playToken {w : TokenWord} {i : Instr} (hd : decode (.tok w) = i) {rest : List Edge} {s t : State}
    (he : s.edges = playTokens [w] ++ rest) (hh : s.held = none) (hp : s.phase ≠ .decode)
    (hx : exec i (setHeld none (consumeEdge (List.replicate 28 takeEdge ++ rest) s)) = .next t) :
    core.run (playTokens [w]).length s = core.run 28 t := by
  have hstep := (step_offerEdge hd (he.trans (congrArg (· ++ rest) (playTokens_singleton w))) hh hp).trans hx
  rw [playTokens_singleton, List.length_cons, List.length_replicate, run_succ 28 hstep]

end Sys2Proof.Machine

namespace Sys2Proof.Safety

open Sys2Proof.Machine

/-- The record of the stream in every state reached from reset. -/
theorem Reachable.streamInvariant {s : State} (hs : Reachable s) : StreamInvariant s := by
  induction hs with
  | reset w es => exact streamInvariant_reset w es
  | step hs hst ih => exact ih.keeps_step (Reachable.stateInvariant hs) hst

/-! ### The phase transition table (R128) -/

/-- The row of R128 for the event `ev` of the edge `e`, from `s`, at which the edge is past, to `t`: the phase, and what else the
"to" column says. -/
def FollowsRow (e : Edge) (s t : State) (ev : Event) : Prop :=
  t.phase = phaseAfter s.phase ev ∧
    (ev = .dataEarly → t.pos = s.pos + 1) ∧
    (ev = .dataLastValid → t.k = 0 ∧ t.pos = 0) ∧
    (ev = .dataLastInvalid → t.errKind = .invalidPredictorIndex) ∧
    (ev = .endBoundary → t.done = true) ∧
    (ev = .endInside → t.errKind = .truncatedInput) ∧
    (ev = .rsvd → t.errKind = .reservedToken) ∧
    (ev = .sampleEarly → t.k = s.k + 1) ∧
    (ev = .sampleLast → t.k = 0) ∧
    (ev = .errorDiscard → t = setHeld none s) ∧
    (ev = .noTransfer → t = setHeld (offer e) s)

section

variable {e : Edge} {s : State} (hr : e.rst = false)
include hr

theorem eventOf_accept {w : TokenWord} (ho : offer e = some w) (hp : s.phase = .accept) : eventOf e s = acceptEvent w s := by
  simp [eventOf, hr, ho, hp]

theorem eventOf_clear {w : TokenWord} (ho : offer e = some w) (hc : tokCmd w = 1) (hp : s.phase ≠ .decode) :
    eventOf e s = .clear := by
  cases hs : s.phase
  case accept => simp [eventOf_accept hr ho hs, acceptEvent, hc]
  case decode => exact absurd hs hp
  case error => simp [eventOf, hr, ho, hs, hc]

theorem eventOf_errorDiscard {w : TokenWord} (ho : offer e = some w) (hc : tokCmd w ≠ 1) (hp : s.phase = .error) :
    eventOf e s = .errorDiscard := by
  simp only [eventOf, hr, ho, hp, if_neg hc]
  rfl

theorem eventOf_noToken (ho : offer e = none) (hp : s.phase ≠ .decode) : eventOf e s = .noTransfer := by
  cases hs : s.phase
  case accept => simp [eventOf, hr, ho, hs]
  case decode => exact absurd hs hp
  case error => simp [eventOf, hr, ho, hs]

theorem eventOf_decode (hp : s.phase = .decode) :
    eventOf e s = if e.smpReady then (if s.k.toNat < 27 then .sampleEarly else .sampleLast) else .noTransfer := by
  simp [eventOf, hr, hp]

end

section

variable {w : TokenWord} {s : State}

theorem acceptEvent_dataEarly (hc : tokCmd w = 0) (h14 : s.pos.toNat < 14) : acceptEvent w s = .dataEarly := by
  simp [acceptEvent, hc, h14]

/-- Byte 14 is the last of its frame, and the header byte's value says whether its table index is legal (R54, R77). -/
theorem acceptEvent_lastByte (hc : tokCmd w = 0) (hpos : s.pos = 14) :
    acceptEvent w s = if s.fbuf[0].toNat < 64 then .dataLastValid else .dataLastInvalid := by
  have hlegal : (hiNibble s.fbuf[0]).toNat ≤ 3 ↔ s.fbuf[0].toNat < 64 := by
    rw [hiNibble_toNat]
    omega
  simp [acceptEvent, hc, hpos, hlegal]

theorem acceptEvent_endBoundary (hc : tokCmd w = 2) (hpos : s.pos = 0) : acceptEvent w s = .endBoundary := by
  simp [acceptEvent, hc, hpos]

theorem acceptEvent_endInside (hc : tokCmd w = 2) (hpos : s.pos ≠ 0) : acceptEvent w s = .endInside := by
  simp only [acceptEvent, hc, if_neg hpos]
  rfl

theorem acceptEvent_rsvd (hc : tokCmd w = 3) : acceptEvent w s = .rsvd := by
  simp [acceptEvent, hc]

end

/-- Each effect of a token is that of its event's row. -/
theorem followsRow_of_tokenEffect {e : Edge} {w : TokenWord} {s t : State} (hr : e.rst = false) (ho : offer e = some w)
    (hh : s.held = none) (ht : TokenEffect w s t) : FollowsRow e s t (eventOf e s) := by
  cases ht with
  | captured hc hp i hi h14 =>
    rw [eventOf_accept hr ho hp, acceptEvent_dataEarly hc h14]
    simp [FollowsRow, phaseAfter, hp]
  | frameValid hc hp h14 hlegal =>
    rw [eventOf_accept hr ho hp, acceptEvent_lastByte hc h14, if_pos hlegal]
    simp [FollowsRow, phaseAfter]
  | frameInvalid hc hp h14 hlegal =>
    rw [eventOf_accept hr ho hp, acceptEvent_lastByte hc h14, if_neg hlegal]
    simp [FollowsRow, phaseAfter]
  | cleared hc hp =>
    rw [eventOf_clear hr ho hc hp]
    simp [FollowsRow, phaseAfter]
  | ended hc hp h0 =>
    rw [eventOf_accept hr ho hp, acceptEvent_endBoundary hc h0]
    simp [FollowsRow, phaseAfter, hp]
  | truncated hc hp h0 =>
    rw [eventOf_accept hr ho hp, acceptEvent_endInside hc h0]
    simp [FollowsRow, phaseAfter]
  | reserved hc hp =>
    rw [eventOf_accept hr ho hp, acceptEvent_rsvd hc]
    simp [FollowsRow, phaseAfter]
  | discarded hc hp =>
    rw [eventOf_errorDiscard hr ho hc hp]
    simp [FollowsRow, phaseAfter, setHeld_of_held hh, hp]

theorem followsRow_of_sampleStep {e : Edge} {s : State} (hr : e.rst = false) (hs : e.smpReady = true) (hp : s.phase = .decode)
    (n : Nibble) : FollowsRow e s (sampleStep n s) (eventOf e s) := by
  rw [eventOf_decode hr hp, if_pos hs]
  by_cases h27 : s.k.toNat < 27
  · rw [if_pos h27, sampleStep_early h27]
    simp [FollowsRow, phaseAfter, sampleOp_eq, hp]
  · rw [if_neg h27, sampleStep_last h27]
    simp [FollowsRow, phaseAfter]

/-! ### The bytes of a frame in the frame buffer (R16, R76) -/

/-- A byte written after the first `i` extends them. -/
theorem take_succ_setIfInBounds (fb : Vector Byte 15) {i : Nat} (hi : i < 15) (b : Byte) :
    (fb.setIfInBounds i b).toList.take (i + 1) = fb.toList.take i ++ [b] := by
  have hlt : i < (fb.toList.set i b).length := by simpa using hi
  rw [Vector.toList_setIfInBounds, List.take_succ_eq_append_getElem hlt, List.getElem_set_self, List.take_set,
    List.set_eq_of_length_le (by simp)]

theorem exactSamples_length (t m : Nat) (ns : List Int) (h1 h2 : Int) : (exactSamples t m ns h1 h2).length = ns.length := by
  induction ns generalizing h1 h2 with
  | nil => rfl
  | cons n ns ih => rw [exactSamples, List.length_cons, ih, List.length_cons]

theorem exactFrame_length (hb : Byte) (rs : Vector Byte 14) (h1 h2 : Int) : (exactFrame hb rs h1 h2).length = 28 := by
  simp [exactFrame, exactSamples_length, List.length_flatMap]

theorem exactStream_length (fs : List (Byte × Vector Byte 14)) (h1 h2 : Int) :
    (exactStream fs h1 h2).length = 28 * fs.length := by
  induction fs generalizing h1 h2 with
  | nil => rfl
  | cons f fs ih => rw [exactStream, List.length_append, exactFrame_length, ih, List.length_cons, Nat.mul_succ, Nat.add_comm]

/-- The values of the last two samples, read from the list of values as `exactStream` does. -/
theorem lastSample_toInt {xs : List Sample} (h : xs ≠ []) (d : Int) :
    (xs.map BitVec.toInt).reverse.headD d = (lastSample xs).toInt := by
  obtain ⟨ys, y, rfl⟩ := (List.eq_nil_or_concat' xs).resolve_left h
  simp

theorem secondLastSample_toInt {xs : List Sample} (h : 2 ≤ xs.length) (d : Int) :
    (xs.map BitVec.toInt).reverse.tail.headD d = (secondLastSample xs).toInt := by
  obtain ⟨ys, y, rfl⟩ := (List.eq_nil_or_concat' xs).resolve_left (by rintro rfl; simp at h)
  have hys : ys ≠ [] := by rintro rfl; simp at h
  rw [secondLastSample_append_singleton, ← lastSample_toInt hys d]
  simp

/-! ### The stream frame by frame (R76, R84, R86, R93) -/

/-- The bytes of a list of frames, as the host sends them (R35). -/
def framesBytes (fs : List (Byte × Vector Byte 14)) : List Byte := fs.flatMap fun f => f.1 :: f.2.toList

theorem framesBytes_cons (f : Byte × Vector Byte 14) (fs : List (Byte × Vector Byte 14)) :
    framesBytes (f :: fs) = (f.1 :: f.2.toList) ++ framesBytes fs := rfl

/-- Inside a stream that began from `start` with CLEAR: the samples `xs` have been transferred and `n` frames counted. -/
structure InStream (start : State) (xs : List Sample) (n : Nat) (s : State) : Prop where
  held : s.held = none
  errKind : s.errKind = .none
  width : s.frameCntW = start.frameCntW
  earlier : s.earlier = start.earlier ++ start.stream
  stream : s.stream = xs
  h1 : s.h1 = lastSample xs
  h2 : s.h2 = secondLastSample xs
  frameCount : s.frameCount = n % 2 ^ start.frameCntW

/-- In ACCEPT with the bytes `bs` of the next frame captured; without bytes, at a frame boundary. -/
structure InFrame (start : State) (xs : List Sample) (n : Nat) (bs : List Byte) (s : State) : Prop extends
    InStream start xs n s where
  phase : s.phase = .accept
  pos : s.pos.toNat = bs.length
  bytes : s.fbuf.toList.take bs.length = bs

/-- In DECODE before the first sample of the frame with header byte `hb` and residual bytes `rs`. -/
structure InDecode (start : State) (xs : List Sample) (n : Nat) (hb : Byte) (rs : Vector Byte 14) (s : State) : Prop extends
    InStream start xs n s where
  phase : s.phase = .decode
  pos : s.pos = 0
  k : s.k = 0
  tidx : s.tidx.toNat = hb.toNat / 16
  shm8 : s.shm8.toNat = hb.toNat % 16
  residuals : s.fbuf.toList.tail = rs.toList

/-- From `s` the edges `es` run to a frame boundary with `rest` ahead, samples of these values transferred after `xs` and `n`
frames counted. -/
def RunsToBoundary (start : State) (xs : List Sample) (n : Nat) (vals : List Int) (es rest : List Edge) (s : State) : Prop :=
  ∃ (t : State) (ys : List Sample), core.run es.length s = .next t ∧ t.edges = rest ∧ ys.map BitVec.toInt = vals ∧
    InFrame start (xs ++ ys) n [] t

section

variable {start s : State} {xs : List Sample} {n : Nat} {rest : List Edge}

/-- The samples of a frame, and its retirement (R83, R84). -/
theorem InDecode.run_samples {hb : Byte} {rs : Vector Byte 14} (h : InDecode start xs n hb rs s)
    (he : s.edges = List.replicate 28 takeEdge ++ rest) :
    RunsToBoundary start xs (n + 1) (exactFrame hb rs (lastSample xs).toInt (secondLastSample xs).toInt)
      (List.replicate 28 takeEdge) rest s := by
  obtain ⟨t, ys, hrun, hlen, hval, rfl⟩ := frameGivesTwentyEightSamples s rest h.phase h.k h.held he
  rw [frameResiduals, h.tidx, h.shm8, h.residuals, h.h1, h.h2] at hval
  refine ⟨_, ys, hrun, rfl, hval,
    { h with stream := ?_, h1 := ?_, h2 := ?_, frameCount := ?_, phase := rfl, pos := ?_, bytes := rfl }⟩
  · rw [h.stream]
  · exact (lastSample_append xs (List.ne_nil_of_length_pos (by omega))).symm
  · exact (secondLastSample_append xs (by omega)).symm
  · rw [h.width, h.frameCount, Nat.mod_add_mod]
  · rw [h.pos]
    rfl

variable {bs : List Byte} (h : InFrame start xs n bs s)
include h

/-- A played token runs its operation at the same place of the stream. -/
theorem InFrame.takes_token {w : TokenWord} {i : Instr} (hd : decode (.tok w) = i)
    (he : s.edges = playTokens [w] ++ rest) :
    ∃ u : State, u.edges = List.replicate 28 takeEdge ++ rest ∧ InFrame start xs n bs u ∧
      ∀ t, exec i u = .next t → core.run (playTokens [w]).length s = core.run 28 t :=
  ⟨setHeld none (consumeEdge (List.replicate 28 takeEdge ++ rest) s), rfl, { h with held := rfl },
    fun _ => run_playToken hd he h.held (by simp [h.phase])⟩

/-- The edges left for samples pass (R30). -/
theorem InFrame.run_idle (he : s.edges = List.replicate 28 takeEdge ++ rest) :
    ∃ t, core.run 28 s = .next t ∧ t.edges = rest ∧ InFrame start xs n bs t :=
  ⟨_, run_takeEdges_idle 28 rest (by simp [h.phase]) h.held he, rfl, { h with }⟩

/-- A byte before the last of its frame is captured (R76). -/
theorem InFrame.exec_byte (b : Byte) (hlen : bs.length < 14) :
    ∃ t, exec (.data b) s = .next t ∧ t.edges = s.edges ∧ InFrame start xs n (bs ++ [b]) t := by
  have h14 : s.pos.toNat < 14 := by rwa [h.pos]
  obtain ⟨hearly, -⟩ := dataCapturesByte b s
  refine ⟨_, hearly h.phase h14, rfl, { h with pos := ?_, bytes := ?_ }⟩
  · rw [BitVec.toNat_add, h.pos, List.length_append]
    exact Nat.mod_eq_of_lt (by simp; omega)
  · rw [List.length_append, List.length_singleton, h.pos, take_succ_setIfInBounds _ (by omega), h.bytes]

/-- The last byte of a frame with a legal header starts DECODE (R77, R78). -/
theorem InFrame.exec_lastByte {b hb : Byte} {rs : Vector Byte 14} (hframe : bs ++ [b] = hb :: rs.toList)
    (hlegal : hb.toNat < 64) :
    ∃ t, exec (.data b) s = .next t ∧ t.edges = s.edges ∧ InDecode start xs n hb rs t := by
  have hlen : bs.length = 14 := by simpa using congrArg List.length hframe
  have hpos : s.pos = 14 := BitVec.eq_of_toNat_eq (h.pos.trans hlen)
  have hfull : (s.fbuf.setIfInBounds 14 b).toList = hb :: rs.toList := by
    rw [← hframe, ← h.bytes, hlen, ← take_succ_setIfInBounds _ (by decide), List.take_of_length_le (by simp)]
  have hhb : s.fbuf[0] = hb := by
    have hfirst : (s.fbuf.toList.set 14 b)[0]? = some hb := by
      rw [← Vector.toList_setIfInBounds, hfull]
      rfl
    simpa using hfirst
  obtain ⟨-, hlast, -⟩ := dataCapturesByte b s
  have hx := hlast h.phase hpos (by rwa [hhb])
  rw [hhb] at hx
  refine ⟨_, hx, rfl, { h with phase := rfl, pos := rfl, k := rfl, tidx := ?_, shm8 := rfl, residuals := ?_ }⟩
  · rw [BitVec.toNat_ofNat]
    exact Nat.mod_eq_of_lt (by omega)
  · rw [hfull, List.tail_cons]

end

theorem inFrame_clearStream {s : State} (hh : s.held = none) : InFrame s [] 0 [] (clearStream s) where
  held := hh
  errKind := rfl
  width := rfl
  earlier := rfl
  stream := rfl
  h1 := rfl
  h2 := rfl
  frameCount := (Nat.zero_mod _).symm
  phase := rfl
  pos := rfl
  bytes := rfl

/-- The bytes left of a frame with a legal header are captured, and the frame is decoded. -/
theorem InFrame.run_bytes {start : State} {xs : List Sample} {n : Nat} {rest : List Edge} {hb : Byte} {rs : Vector Byte 14}
    (hlegal : hb.toNat < 64) : ∀ (left : List Byte) {bs : List Byte} {s : State}, left ≠ [] → bs ++ left = hb :: rs.toList →
    InFrame start xs n bs s → s.edges = playTokens (dataWords left) ++ rest →
    RunsToBoundary start xs (n + 1) (exactFrame hb rs (lastSample xs).toInt (secondLastSample xs).toInt)
      (playTokens (dataWords left)) rest s
  | [], _, _, hne, _, _, _ => absurd rfl hne
  | [b], bs, s, _, hframe, h, he => by
    obtain ⟨u, hue, hu, hrun⟩ := h.takes_token (decode_encode (i := .data b) rfl) he
    obtain ⟨t, hx, hte, ht⟩ := hu.exec_lastByte hframe hlegal
    obtain ⟨v, ys, hsamples, hv⟩ := ht.run_samples (hte.trans hue)
    exact ⟨v, ys, (hrun t hx).trans hsamples, hv⟩
  | b :: b' :: left, bs, s, _, hframe, h, he => by
    have hlen : bs.length + (left.length + 2) = 15 := by simpa using congrArg List.length hframe
    obtain ⟨u, hue, hu, hrun⟩ := h.takes_token (rest := playTokens (dataWords (b' :: left)) ++ rest)
      (decode_encode (i := .data b) rfl) he
    obtain ⟨t, hx, hte, ht⟩ := hu.exec_byte b (by omega)
    obtain ⟨v, hidle, hve, hv⟩ := ht.run_idle (hte.trans hue)
    obtain ⟨z, ys, hleft, hz⟩ := InFrame.run_bytes hlegal (b' :: left) (by simp) (by simpa using hframe) hv hve
    exact ⟨z, ys, (run_append (playTokens (dataWords (b' :: left))) ((hrun t hx).trans hidle)).trans hleft, hz⟩

/-- The bytes of frames with legal headers run to a frame boundary with the samples of `exactStream` (R93). -/
theorem InFrame.run_frames {start : State} {rest : List Edge} : ∀ (fs : List (Byte × Vector Byte 14)) {s : State}
    {xs : List Sample} {n : Nat}, (∀ f ∈ fs, f.1.toNat < 64) → InFrame start xs n [] s →
    s.edges = playTokens (dataWords (framesBytes fs)) ++ rest →
    RunsToBoundary start xs (n + fs.length) (exactStream fs (lastSample xs).toInt (secondLastSample xs).toInt)
      (playTokens (dataWords (framesBytes fs))) rest s
  | [], s, xs, n, _, h, he => ⟨s, [], rfl, he, rfl, by simpa using h⟩
  | f :: fs, s, xs, n, hlegal, h, he => by
    obtain ⟨hf, hfs⟩ := List.forall_mem_cons.mp hlegal
    rw [framesBytes_cons, dataWords_append, playTokens_append] at he ⊢
    obtain ⟨t, ys, hrun, hte, hys, ht⟩ := InFrame.run_bytes hf (f.1 :: f.2.toList) (by simp) rfl h
      (he.trans (List.append_assoc _ _ _))
    obtain ⟨u, zs, hrun', hue, hzs, hu⟩ := InFrame.run_frames fs hfs ht hte
    have hlen : ys.length = 28 := by rw [← List.length_map BitVec.toInt, hys, exactFrame_length]
    have hne : ys ≠ [] := List.ne_nil_of_length_pos (by omega)
    refine ⟨u, ys ++ zs, (run_append _ hrun).trans hrun', hue, ?_, ?_⟩
    · rw [List.map_append, hzs, hys, exactStream, ← hys, lastSample_toInt hne, secondLastSample_toInt (by omega),
        lastSample_append xs hne, secondLastSample_append xs (by omega)]
    · rw [← List.append_assoc, List.length_cons, Nat.add_comm fs.length, ← Nat.add_assoc]
      exact hu

/-! ### The statements on a token by phase -/

/-- Settles O25: CLEAR's write of its fields, which a second one repeats. -/
theorem clearStartsNewStream : Obligations.ClearStartsNewStream := by
  refine fun d d' s => ⟨exec_clear d, fun hp => ?_⟩
  rw [exec_clear d hp, andThen_next, exec_clear d' (s := clearStream s) (by simp)]
  simp [clearStream]

/-- Settles O26, phase by phase. -/
theorem endChecksBoundary : Obligations.EndChecksBoundary := by
  refine fun d s => ⟨exec_endTok_boundary d, fun hp hpos => ?_, fun hp => ?_, fun hp => ?_⟩
  · simp only [exec, execEndTok, hp, if_neg hpos, BitVec.ofNat_toNat]
    rfl
  · simp only [exec, execEndTok, hp]
  · simp only [exec, execEndTok, hp]

/-- Settles O27, phase by phase. -/
theorem reservedTokenRaises : Obligations.ReservedTokenRaises := by
  refine fun d s => ⟨fun hp => ?_, fun hp => ?_, fun hp => ?_⟩
  · simp only [exec, execRsvd, hp]
    rfl
  · simp only [exec, execRsvd, hp]
  · simp only [exec, execRsvd, hp]

/-- Settles O33: CLEAR leaves a boundary with an empty stream, where END sets done. -/
theorem emptyStream : Obligations.EmptyStream := by
  intro d d' s hp
  refine ⟨markDone (clearStream s), ?_, List.append_nil _, rfl, rfl, rfl, rfl⟩
  rw [exec_clear d hp, andThen_next, exec_endTok_boundary d' rfl rfl]

/-- Settles O34: done is all that END writes at a boundary, and the byte's capture clears it. -/
theorem endThenDataIsData : Obligations.EndThenDataIsData := by
  intro d b s hp hpos
  rw [exec_endTok_boundary d hp hpos, andThen_next, exec_data_accept b hp, exec_data_accept (s := markDone s) b hp,
    captureByte_markDone b hpos]

/-! ### The statements on an edge by phase -/

/-- Settles O28: a live edge in ERROR with a token offered runs the token's operation, which only CLEAR has there. -/
theorem tokensDiscardedInError : Obligations.TokensDiscardedInError := by
  intro e rest s he hr hs hp hv
  obtain ⟨htoken, -⟩ := stepRunsDecodedInstruction
  have hstep := htoken e rest s he hr hs (by simp [hp]) hv
  refine ⟨by simp [tokReadyAllowed, hp], fun hc => ?_, fun hc => ?_⟩
  · exact hstep.trans (exec_tok_error (by rwa [tokCmd_tokWord]) hp)
  · rw [hstep, hc, decode_tokWord]
    exact exec_clear e.tokData (by simp [hp])

/-- Settles O29: the token offered in DECODE is only remembered, and the sample step does not read it. -/
theorem noTokenTakenInDecode : Obligations.NoTokenTakenInDecode := by
  refine ⟨exec_tok_decode, fun e e' rest s s' t hp hr hr' hsmp hs hs' he hs'eq hst => ?_⟩
  subst hs'eq
  refine ⟨by simp [tokReadyAllowed, hp], ?_⟩
  rcases step_decode_cases he hr hp hst with ⟨hwait, rfl⟩ | ⟨htake, n, hn, rfl⟩
  · exact ⟨rfl, step_holdSample rfl hr' hs' hp (hsmp ▸ hwait)⟩
  · refine ⟨by simp [sampleStep_setHeld], ?_⟩
    have hstep := step_takeSample (s := { s with edges := e' :: rest }) rfl hr' hs' hp (hsmp ▸ htake) hn
    rw [hstep, sampleStep_setHeld, sampleStep_setHeld]
    rfl

/-- Settles O30: without smp_ready a live edge in DECODE holds the sample, and so the phase. -/
theorem backPressureHoldsState : Obligations.BackPressureHoldsState := by
  refine fun e rest s t he hp hsmp => ⟨fun hr hs => step_holdSample he hr hs hp hsmp, fun hst hleft => ?_⟩
  by_contra hr
  rcases step_decode_cases he (by simpa using hr) hp hst with ⟨-, rfl⟩ | ⟨htake, -⟩
  · exact hleft hp
  · simp [hsmp] at htake

/-- Settles O40: of the step's effects only the sample transfer sends a sample, the one that smp_data offers. -/
theorem transferredSamplesStand : Obligations.TransferredSamplesStand := by
  intro s t hst
  cases step_effect hst with
  | noEdge he => exact .inl rfl
  | reset e rest he hr => exact .inl (List.append_nil _)
  | noToken e rest he hr hp ho => exact .inl rfl
  | token e rest w t he hr hp ho hx ht =>
    have hsent := ht.sent_eq
    exact .inl hsent
  | held e rest he hr hp hs => exact .inl rfl
  | sample e rest n he hr hp hs hn =>
    have hx : sampleAt s = some (reconstruct n s.tidx s.shm8 s.h1 s.h2) := by rw [sampleAt, hn]; rfl
    have hvalid : smpValidAllowed false s = true := by simp [smpValidAllowed, hp]
    exact .inr ⟨e, rest, _, he, hr, hs, hvalid, hx, by simp [smpData, hvalid, hx], sent_sampleStep n _⟩

/-- Settles O36: each effect of a step is that of its event's row. -/
theorem phaseTransitionTable : Obligations.PhaseTransitionTable := by
  intro e rest s t he hst
  change FollowsRow e (consumeEdge rest s) t (eventOf e s)
  have hedge {e' : Edge} {rest' : List Edge} (he' : s.edges = e' :: rest') : e' = e ∧ rest' = rest :=
    List.cons.inj (he'.symm.trans he)
  cases step_effect hst with
  | noEdge he' => simp [he] at he'
  | reset e' rest' he' hr =>
    obtain ⟨rfl, rfl⟩ := hedge he'
    simp [FollowsRow, eventOf, hr, phaseAfter]
  | noToken e' rest' he' hr hp ho =>
    obtain ⟨rfl, rfl⟩ := hedge he'
    simp [FollowsRow, eventOf_noToken hr ho hp, phaseAfter, ho]
  | token e' rest' w t he' hr hp ho hx ht =>
    obtain ⟨rfl, rfl⟩ := hedge he'
    exact followsRow_of_tokenEffect (s := setHeld none (consumeEdge rest' s)) hr ho rfl ht
  | held e' rest' he' hr hp hs =>
    obtain ⟨rfl, rfl⟩ := hedge he'
    simp [FollowsRow, eventOf_decode hr hp, hs, phaseAfter]
  | sample e' rest' n he' hr hp hs hn =>
    obtain ⟨rfl, rfl⟩ := hedge he'
    exact followsRow_of_sampleStep (s := setHeld (offer e') (consumeEdge rest' s)) hr hs hp n

/-! ### The statements on the end of a run, and on a whole stream (R93, R98) -/

/-- Settles O57: done is set only at a boundary in ACCEPT, where k is 0 and the samples are whole frames. -/
theorem succeededRunIsWholeFrames : Obligations.SucceededRunIsWholeFrames := by
  rintro s hs ⟨-, hdone, hK⟩
  have hinv := Reachable.stateInvariant hs
  obtain ⟨hp, hpos⟩ := hinv.done_boundary hdone
  refine ⟨hp, hpos, fun ⟨_, hK'⟩ => hK' hK, ?_⟩
  have hk : s.k = 0 := hinv.k_zero (by simp [hp])
  have hlt : 28 * s.frameCount < 28 * 2 ^ s.frameCntW := Nat.mul_lt_mul_of_pos_left hinv.frameCount_lt (by decide)
  calc s.stream.length % (28 * 2 ^ s.frameCntW)
      = 28 * s.frameCount % (28 * 2 ^ s.frameCntW) := by rw [(Reachable.streamInvariant hs).count, hk]; rfl
    _ = 28 * s.frameCount := Nat.mod_eq_of_lt hlt

/-- Settles O58: with no token ahead and no reset, an edge outside DECODE only passes, which no status output shows. -/
theorem endedRunStands : Obligations.EndedRunStands := by
  intro s hend hlive
  obtain ⟨hp, hh, hno⟩ := hend
  cases he : s.edges with
  | nil => exact ⟨s, by simp [step, nextEdge, he], ⟨hp, hh, hno⟩, hlive, rfl⟩
  | cons e rest =>
    simp only [he, List.forall_mem_cons] at hno hlive
    obtain ⟨ho, hno⟩ := hno
    obtain ⟨hr, hlive⟩ := hlive
    exact ⟨_, step_noToken he hr hh hp ho, ⟨hp, rfl, hno⟩, hlive,
      Prod.ext rfl (statusLevels_noTransfer none rest hp)⟩

/-- Settles O35: CLEAR reaches the first frame boundary, the frames' bytes the last, and END sets done there. -/
theorem streamOfValidFrames : Obligations.StreamOfValidFrames := by
  intro fs s hp hh hlegal ws hws he
  subst hws
  rw [List.cons_append, ← List.singleton_append, playTokens_append, playTokens_append] at he ⊢
  have hclear := run_playToken (decode_encode (i := .clear 0) rfl) he hh hp (exec_clear 0 hp)
  obtain ⟨t, hidle, hte, ht⟩ := (inFrame_clearStream (s := setHeld none (consumeEdge _ s)) rfl).run_idle rfl
  obtain ⟨u, ys, hrun, hue, hys, hu⟩ := InFrame.run_frames fs hlegal ht hte
  obtain ⟨v, hve, hv, hend⟩ := hu.takes_token (rest := []) (decode_encode (i := .endTok 0) rfl) hue
  have hdone := hend (markDone v) (exec_endTok_boundary 0 hv.phase (BitVec.eq_of_toNat_eq hv.pos))
  have hlast := hdone.trans (run_takeEdges_idle 28 [] (by simp [hv.phase]) hv.held hve)
  have hlen : ys.length = 28 * fs.length := by rw [← List.length_map BitVec.toInt, hys, exactStream_length]
  refine ⟨_, (run_append _ (hclear.trans hidle)).trans ((run_append _ hrun).trans hlast), ?_, ?_, hv.earlier, hv.phase, rfl,
    hv.errKind, ?_⟩
  · exact (congrArg List.length hv.stream).trans hlen
  · exact (congrArg (List.map BitVec.toInt) hv.stream).trans hys
  · exact hv.frameCount.trans (by rw [Nat.zero_add]; rfl)

end Sys2Proof.Safety

/-! SUPPORT. Errors (spec/60_exceptions.md): how a step enters ERROR and with what record (R101-R106), how it leaves ERROR (R91,
R109), and how many samples stand there (R107), with the statements of the family. -/

namespace Sys2Proof.Machine

/-! ### The way into ERROR (R102-R106) -/

/-- Why the token `w` taken in `s` raises an error, with the error's kind and detail: END inside a frame (R102), byte 14 of
a frame with an illegal header (R103), a reserved token (R104). -/
inductive ErrorCause (w : TokenWord) (s : State) : ErrKind → Byte → Prop where
  | truncated (hc : tokCmd w = 2) (hpos : s.pos ≠ 0) : ErrorCause w s .truncatedInput (s.pos.setWidth 8)
  | badHeader (hc : tokCmd w = 0) (hpos : s.pos = 14) (ht : 64 ≤ s.fbuf[0].toNat) :
      ErrorCause w s .invalidPredictorIndex s.fbuf[0]
  | reserved (hc : tokCmd w = 3) : ErrorCause w s .reservedToken (tokData w)

/-- A token that leads into ERROR is taken in ACCEPT, and error entry is all it does, but that byte 14 has gone into the frame
buffer first (R76, R106). -/
theorem TokenEffect.enters_error {w : TokenWord} {s t : State} (ht : TokenEffect w s t) (hp : s.phase ≠ .error)
    (herr : t.phase = .error) :
    s.phase = .accept ∧ ∃ kind info fb, t = { errorEntry kind info s with fbuf := fb } ∧ ErrorCause w s kind info := by
  cases ht with
  | captured hc hacc i hi h14 => exact absurd herr hp
  | frameValid hc hacc h14 hlegal => simp at herr
  | frameInvalid hc hacc h14 hillegal => exact ⟨hacc, _, _, _, rfl, .badHeader hc h14 (Nat.not_lt.mp hillegal)⟩
  | cleared hc hlive => simp at herr
  | ended hc hacc h0 => exact absurd herr hp
  | truncated hc hacc h0 => exact ⟨hacc, _, _, _, rfl, .truncated hc h0⟩
  | reserved hc hacc => exact ⟨hacc, _, _, _, rfl, .reserved hc⟩
  | discarded hc h => exact absurd h hp

theorem sampleStep_phase_ne_error (n : Nibble) {s : State} (hp : s.phase = .decode) : (sampleStep n s).phase ≠ .error := by
  by_cases hk : s.k.toNat < 27
  · simp [sampleStep_early hk, sampleOp_eq, hp]
  · simp [sampleStep_last hk]

/-- Of the step's effects only a token leads into ERROR. -/
theorem step_enters_error {s t : State} (hst : step s = .next t) (hp : s.phase ≠ .error) (herr : t.phase = .error) :
    ∃ e rest w, s.edges = e :: rest ∧ e.rst = false ∧ offer e = some w ∧
      TokenEffect w (setHeld none (consumeEdge rest s)) t := by
  cases step_effect hst with
  | noEdge he => exact absurd herr hp
  | reset e rest he hr => simp at herr
  | noToken e rest he hr hlive ho => exact absurd herr hp
  | token e rest w t he hr hlive ho hx ht => exact ⟨e, rest, w, he, hr, ho, ht⟩
  | held e rest he hr hdec hs => exact absurd herr hp
  | sample e rest n he hr hdec hs hn => exact absurd herr (sampleStep_phase_ne_error n hdec)

/-! ### The way out of ERROR (R91, R109) -/

/-- In ERROR a token is CLEAR, or is discarded. -/
theorem TokenEffect.in_error {w : TokenWord} {s t : State} (ht : TokenEffect w s t) (hp : s.phase = .error) :
    (tokCmd w = 1 ∧ t = clearStream s) ∨ t = s := by
  cases ht with
  | cleared hc hlive => exact .inl ⟨hc, rfl⟩
  | discarded hc h => exact .inr rfl
  | captured hc hacc | frameValid hc hacc | frameInvalid hc hacc | ended hc hacc | truncated hc hacc | reserved hc hacc =>
    simp [hp] at hacc

end Sys2Proof.Machine

namespace Sys2Proof.Safety

open Sys2Proof.Machine

/-- Where no frame is being decoded the samples are 28 per frame, as far as the counter's width tells (R84, R107). -/
theorem StreamInvariant.count_of_k_zero {s : State} (h : StreamInvariant s) (hk : s.k = 0)
    (hf : s.frameCount < 2 ^ s.frameCntW) : s.stream.length % (28 * 2 ^ s.frameCntW) = 28 * s.frameCount := by
  have hlt : 28 * s.frameCount < 28 * 2 ^ s.frameCntW := Nat.mul_lt_mul_of_pos_left hf (by decide)
  rw [h.count, hk]
  exact Nat.mod_eq_of_lt hlt

/-! ### The statements on errors -/

/-- Settles O37: the one way into ERROR is a token's error entry in ACCEPT, with one of the three causes. -/
theorem errorEntryRecords : Obligations.ErrorEntryRecords := by
  intro e rest s t he hp hst herr
  obtain ⟨e', rest', w, he', hr, ho, ht⟩ := step_enters_error hst hp herr
  obtain ⟨rfl, rfl⟩ := List.cons.inj (he'.symm.trans he)
  obtain ⟨hv, rfl⟩ := offer_some ho
  obtain ⟨hacc, kind, info, fb, rfl, hcause⟩ := ht.enters_error hp herr
  refine ⟨hacc, hr, hv, rfl, rfl, rfl, rfl, rfl, rfl, rfl, rfl, ?_⟩
  cases hcause with
  | truncated hc hpos => exact .inl ⟨(tokCmd_tokWord _ _).symm.trans hc, hpos, rfl, BitVec.toNat_setWidth_of_le (by decide)⟩
  | badHeader hc hpos hillegal => exact .inr (.inl ⟨(tokCmd_tokWord _ _).symm.trans hc, hpos, hillegal, rfl, rfl⟩)
  | reserved hc => exact .inr (.inr ⟨(tokCmd_tokWord _ _).symm.trans hc, rfl, tokData_tokWord _ _⟩)

/-- Settles O38: from ERROR every other effect of a step leaves the phase, the record and the samples. -/
theorem onlyClearOrResetLeavesError : Obligations.OnlyClearOrResetLeavesError := by
  intro s t hp hst
  cases step_effect hst with
  | noEdge he => exact .inl ⟨hp, rfl, rfl, rfl, rfl⟩
  | reset e rest he hr => exact .inr ⟨rfl, rfl, rfl, rfl, rfl, e, rest, he, .inl hr⟩
  | noToken e rest he hr hlive ho => exact .inl ⟨hp, rfl, rfl, rfl, rfl⟩
  | token e rest w t he hr hlive ho hx ht =>
    obtain ⟨hv, hcmd⟩ := offer_cmd ho
    rcases ht.in_error hp with ⟨hc, rfl⟩ | rfl
    · exact .inr ⟨rfl, rfl, rfl, rfl, rfl, e, rest, he, .inr ⟨hv, hcmd ▸ hc⟩⟩
    · exact .inl ⟨hp, rfl, rfl, rfl, rfl⟩
  | held e rest he hr hdec hs => simp [hp] at hdec
  | sample e rest n he hr hdec hs hn => simp [hp] at hdec

/-- Settles O39: both invariants hold in a reached state, and in ERROR k is 0, so that no frame is counted in part. -/
theorem errorsArePrecise : Obligations.ErrorsArePrecise := by
  intro s hs hp
  have hinv := Reachable.stateInvariant hs
  have hstream := Reachable.streamInvariant hs
  have hk : s.k = 0 := hinv.k_zero (by simp [hp])
  exact ⟨hinv.error_iff.mp hp, hstream.err_frame hp, hstream.h1_last, hstream.h2_second,
    hstream.count_of_k_zero hk hinv.frameCount_lt⟩

end Sys2Proof.Safety

/-! SUPPORT. Reset and the host's duty (spec/70_reset_and_hazards.md): the reset edge (R116-R118), CLEAR after it (R120), and the
edge at which the host breaks its duty (R125), with the statements of the family. -/

namespace Sys2Proof.Machine

/-! ### The reset edge (R116, R118) -/

theorem step_reset {e : Edge} {rest : List Edge} {s : State} (he : s.edges = e :: rest) (hr : e.rst = true) :
    step s = .next (resetStep (consumeEdge rest s)) := by
  rw [step_edge he, edgeStep, if_pos hr]

/-- Of the old state a reset step keeps the counter's width, the coming edges, their count and the samples transferred. -/
theorem resetStep_eq_reset (s : State) :
    resetStep s = { State.reset with
      fbuf := (resetStep s).fbuf, frameCntW := s.frameCntW, edges := s.edges, draws := s.draws,
      earlier := s.earlier ++ s.stream } := rfl

@[simp] theorem tokReadyAllowed_in_reset (s : State) : tokReadyAllowed true s = false := rfl

@[simp] theorem smpValidAllowed_in_reset (s : State) : smpValidAllowed true s = false := rfl

/-- After reset no error stands and no frame is being decoded, so that every status output shows its field. -/
theorem statusLevels_reset : statusLevels State.reset = ⟨false, false, 0, 0, 0, 0, 0, 0, 0⟩ := rfl

/-- CLEAR writes a subset of what reset does, with the same values (R88, R117). -/
theorem clearStream_reset : clearStream State.reset = State.reset := rfl

/-! ### The host's duty (R125) -/

theorem hostStable_of_held {e : Edge} {w : TokenWord} {s : State} (hh : s.held = some w) :
    hostStable e s = true ↔ offer e = some w := by
  simp only [hostStable, hh, Option.isNone_some, Bool.false_or, beq_iff_eq]
  exact eq_comm

theorem step_unstable {e : Edge} {rest : List Edge} {s : State} (he : s.edges = e :: rest) (hr : e.rst = false)
    (hs : hostStable e s = false) : step s = .refused .hostUnstable := by
  simp [step_edge he, edgeStep, hr, hs]

end Sys2Proof.Machine

namespace Sys2Proof.Safety

open Sys2Proof.Machine

/-! ### The statements on reset and the host's duty -/

/-- Settles O32: a held token that is not offered again is a broken duty, which only the reset edge does not look at. -/
theorem unstableHostRefused : Obligations.UnstableHostRefused := by
  intro e rest w s he hh ho
  have hs : hostStable e s = false := Bool.eq_false_iff.mpr (mt (hostStable_of_held hh).mp ho)
  exact ⟨fun hr => step_unstable he hr hs, fun hr => ⟨_, step_reset he hr⟩⟩

/-- Settles O48: the fields stand in `State.reset`; the outputs are those while rst = 1, and the status of that state. -/
theorem resetValues : Obligations.ResetValues :=
  ⟨rfl, rfl, rfl, rfl, rfl, rfl, rfl, rfl, rfl, rfl, rfl, rfl,
    fun s => ⟨tokReadyAllowed_in_reset s, smpValidAllowed_in_reset s⟩, statusLevels_reset⟩

/-- Settles O49: the step is the reset step on the state with the edge past, fbuf at that step's free values. -/
theorem resetStepFromAnyState : Obligations.ResetStepFromAnyState := by
  intro e rest s he hr
  refine ⟨tokReadyAllowed_in_reset s, smpValidAllowed_in_reset s, (resetStep (consumeEdge rest s)).fbuf, ?_⟩
  rw [step_reset he hr, resetStep_eq_reset]
  rfl

/-- Settles O50: reset is in ACCEPT, where CLEAR starts a new stream, and the new stream's state is reset's own. -/
theorem clearAfterReset : Obligations.ClearAfterReset := fun d =>
  (exec_clear d (s := State.reset) (by decide)).trans (congrArg Host.Outcome.next clearStream_reset)

end Sys2Proof.Safety
